-- ==== Sys2Proof/Word.lean ====
section
/-! DEFINITION. The data words of the codec (00_scope.md R6): a raw byte or character, and a base-45 digit. -/

namespace Sys2Proof

/-- A raw byte, or a character held as one 8-bit byte (R6, R25). -/
abbrev Byte := BitVec 8

/-- A digit value, an integer 0 to 44 (R6). -/
abbrev Digit := Fin 45

end Sys2Proof
end

