-- ==== Sys2Proof/Config.lean ====
section
/-! DEFINITION. The one build parameter (00_scope.md R5) and the free values the spec leaves to the host or to
power-up (10_state.md R10, R21; 70_reset_and_hazards.md R90). A free value is a constant without a body. -/

namespace Sys2Proof

/-- The build-time parameters: only the offset width `OFFSET_W` (R2, R5). -/
structure Config where
  /-- `OFFSET_W`, the width in bits of `dec_in_off` and `dec_rsp_erroff` (R5). -/
  offsetW : Nat
  deriving DecidableEq, Repr

namespace Config

/-- R5: `OFFSET_W >= 2`. -/
def wf (c : Config) : Bool := decide (2 ≤ c.offsetW)

/-- R5: "the suggested value is 32" (DESIGN CHOICE, log 1: the value State.reset carries). -/
def suggested : Config := ⟨32⟩

/-- The input ports the host drives in every cycle (R10, R11, R12, R14). -/
inductive InputPort
  | rst
  | encInValid | encInCnt | encInData | encRspReady
  | decInValid | decInCnt | decInChars | decInOff | decRspReady
  deriving DecidableEq, Repr

/-- The registers of R21. -/
inductive Reg
  | encRspValid | encRspStatus | encRspCnt | encRspChars
  | decRspValid | decRspStatus | decRspNbytes | decRspConsumed | decRspData | decRspErroff
  deriving DecidableEq, Repr

/-- FREE VALUE (R10): "each input's value in each cycle is a free draw". The number on a port's wires in the cycle
with the given index, for a cycle the host has settled nothing about (log 3). -/
opaque drawnInput : Nat → InputPort → Nat

/-- FREE VALUE (R21, R90): the value of a register at power-up, "any value of the register's width" (log 11). -/
opaque powerUp : Reg → Nat

end Config

end Sys2Proof
end

