-- ==== Sys2Proof/Syntax.lean ====
section
/-! DEFINITION. The operations of the codec: one constructor per row of spec/opcode_table.json (30_encoding.md R50,
R51; 60_exceptions.md R83: "The full operation set is ENC0 to ENC3 and DEC0 to DEC3"). -/

namespace Sys2Proof

/-- The two request channels (10_state.md R12, R14). A request word is a word of one of them. -/
inductive Channel
  | enc
  | dec
  deriving DecidableEq, Repr

/-- One request. Its operands are ALL the payload lanes of its word in stream order, the ignored ones too (R53 then is a
claim about their meaning, not an effect of dropping bits; DESIGN CHOICE, log 7). `off` is the stream offset of
`ch0` (R14), a number below `2^OFFSET_W` in a well-formed request. -/
inductive Instr
  /-- ENC0, the empty block (R61); both lanes ignored. -/
  | enc0 (b0 b1 : Byte)
  /-- ENC1, the short block of `b0` (R60); `b1` ignored. -/
  | enc1 (b0 b1 : Byte)
  /-- ENC2, the full block `b0`, `b1` (R59). -/
  | enc2 (b0 b1 : Byte)
  /-- ENC3, the reserved request (R52, R62); both lanes ignored. -/
  | enc3 (b0 b1 : Byte)
  /-- DEC0, the clean end (R67); all lanes and the offset ignored. -/
  | dec0 (ch0 ch1 ch2 : Byte) (off : Nat)
  /-- DEC1, the lone trailing character (R68); no lane looked up. -/
  | dec1 (ch0 ch1 ch2 : Byte) (off : Nat)
  /-- DEC2, the short block `ch0`, `ch1` (R69); `ch2` ignored. -/
  | dec2 (ch0 ch1 ch2 : Byte) (off : Nat)
  /-- DEC3, the full block `ch0`, `ch1`, `ch2` (R70). -/
  | dec3 (ch0 ch1 ch2 : Byte) (off : Nat)
  deriving DecidableEq, Repr

namespace Instr

/-- The channel a request travels on (R50, R51). -/
def channel : Instr → Channel
  | .enc0 _ _ => .enc
  | .enc1 _ _ => .enc
  | .enc2 _ _ => .enc
  | .enc3 _ _ => .enc
  | .dec0 _ _ _ _ => .dec
  | .dec1 _ _ _ _ => .dec
  | .dec2 _ _ _ _ => .dec
  | .dec3 _ _ _ _ => .dec

end Instr

/-! The mnemonic forms of 30_encoding.md R57: "Omitted lanes are 0x00 in the packed word. `@off` defaults to `@0`." -/
namespace Asm

def enc0 : Instr := .enc0 0 0
def enc1 (b0 : Byte) : Instr := .enc1 b0 0
def enc2 (b0 b1 : Byte) : Instr := .enc2 b0 b1
def enc3 : Instr := .enc3 0 0
def dec0 (off : Nat := 0) : Instr := .dec0 0 0 0 off
def dec1 (c0 : Byte) (off : Nat := 0) : Instr := .dec1 c0 0 0 off
def dec2 (c0 c1 : Byte) (off : Nat := 0) : Instr := .dec2 c0 c1 0 off
def dec3 (c0 c1 c2 : Byte) (off : Nat := 0) : Instr := .dec3 c0 c1 c2 off

end Asm

end Sys2Proof
end

