-- ==== Sys2Proof/WellFormed.lean ====
section
/-! DEFINITION. Which requests exist: every lane is 8 bits by its type, so the one check left is that a decoder request's
offset fits the `OFFSET_W` wires of `dec_in_off` (30_encoding.md R48, 00_scope.md R5). -/

namespace Sys2Proof

/-- An offset that the port `dec_in_off` can carry (R14, R48). -/
def offsetFits (c : Config) (off : Nat) : Bool := decide (off < 2 ^ c.offsetW)

namespace Instr

/-- A request word of this instruction exists on its channel. Every encoder request does (R50: "Every 18-bit ENC_REQ
word selects exactly one row"), the reserved ENC3 too. -/
def wf (c : Config) : Instr → Bool
  | .enc0 _ _ => true
  | .enc1 _ _ => true
  | .enc2 _ _ => true
  | .enc3 _ _ => true
  | .dec0 _ _ _ off => offsetFits c off
  | .dec1 _ _ _ off => offsetFits c off
  | .dec2 _ _ _ off => offsetFits c off
  | .dec3 _ _ _ off => offsetFits c off

end Instr

end Sys2Proof
end

