-- ==== Sys2Proof/Decode.lean ====
section
/-! DEFINITION. The request words of 30_encoding.md (R46, R48), the decoder from words to operations (R50, R51, R52,
R56), the encoder back, and the opcode table's rows. The packed words concatenate a channel's payload ports;
on the wires the fields are separate. -/

namespace Sys2Proof

/-- Lane `k` of a byte vector: bits `[8k+7:8k]` (20_memory.md R31). -/
def lane (k : Nat) {n : Nat} (v : BitVec n) : Byte := v.extractLsb' (8 * k) 8

/-- `{x1, x0}`: the lanes of a 16-bit vector (R7, R31). -/
def lanes2 (x0 x1 : Byte) : BitVec 16 := x1 ++ x0

/-- `{x2, x1, x0}`: the lanes of a 24-bit vector (R7, R31). -/
def lanes3 (x0 x1 x2 : Byte) : BitVec 24 := x2 ++ x1 ++ x0

/-- The ENC_REQ word `{enc_in_cnt, enc_in_data}` (R46). -/
def packEncReq (cnt : BitVec 2) (data : BitVec 16) : BitVec 18 := cnt ++ data

/-- The low 26 bits `{dec_in_cnt, dec_in_chars}` of a DEC_REQ word, which are independent of `OFFSET_W` (R48). -/
def packDecReqLow (cnt : BitVec 2) (chars : BitVec 24) : BitVec 26 := cnt ++ chars

/-- The whole DEC_REQ word `{dec_in_off, dec_in_cnt, dec_in_chars}` as a number (R48): `off` starts at bit 26. -/
def packDecReq (off : Nat) (cnt : BitVec 2) (chars : BitVec 24) : Nat :=
  off * 2 ^ 26 + (packDecReqLow cnt chars).toNat

/-- R50: the encoder's operation is selected by `cnt` = ENC_REQ[17:16] alone, and every 18-bit word selects one row. -/
def decodeEncReq (w : BitVec 18) : Instr :=
  match w.extractLsb' 16 2 with
  | 0#2 => .enc0 (lane 0 w) (lane 1 w)
  | 1#2 => .enc1 (lane 0 w) (lane 1 w)
  | 2#2 => .enc2 (lane 0 w) (lane 1 w)
  | 3#2 => .enc3 (lane 0 w) (lane 1 w)

/-- R51: the decoder's operation is selected by `cnt` = DEC_REQ[25:24] alone; no value is reserved. -/
def decodeDecReq (off : Nat) (w : BitVec 26) : Instr :=
  match w.extractLsb' 24 2 with
  | 0#2 => .dec0 (lane 0 w) (lane 1 w) (lane 2 w) off
  | 1#2 => .dec1 (lane 0 w) (lane 1 w) (lane 2 w) off
  | 2#2 => .dec2 (lane 0 w) (lane 1 w) (lane 2 w) off
  | 3#2 => .dec3 (lane 0 w) (lane 1 w) (lane 2 w) off

/-- Why a number is no request word of a channel. -/
inductive Reject
  /-- It has a bit above bit 17 and so is no 18-bit ENC_REQ word (R46). -/
  | encReqTooWide
  /-- It has a bit above bit `25 + OFFSET_W` and so is no DEC_REQ word (R48). -/
  | decReqTooWide
  deriving DecidableEq, Repr

/-- The request that the word `w` of the channel `ch` names, for any number `w`. Only a number wider than the channel
is rejected: every word of either channel is a request (R50, R51), the reserved ENC3 among them (R52). -/
def decode (c : Config) (ch : Channel) (w : Nat) : Except Reject Instr :=
  match ch with
  | .enc =>
    if w < 2 ^ 18 then .ok (decodeEncReq (BitVec.ofNat 18 w)) else .error .encReqTooWide
  | .dec =>
    if w < 2 ^ (26 + c.offsetW) then .ok (decodeDecReq (w / 2 ^ 26) (BitVec.ofNat 26 w))
    else .error .decReqTooWide

/-- The request word of an instruction on its channel (R46, R48, R50, R51). -/
def encode : Instr → Nat
  | .enc0 b0 b1 => (packEncReq 0 (lanes2 b0 b1)).toNat
  | .enc1 b0 b1 => (packEncReq 1 (lanes2 b0 b1)).toNat
  | .enc2 b0 b1 => (packEncReq 2 (lanes2 b0 b1)).toNat
  | .enc3 b0 b1 => (packEncReq 3 (lanes2 b0 b1)).toNat
  | .dec0 ch0 ch1 ch2 off => packDecReq off 0 (lanes3 ch0 ch1 ch2)
  | .dec1 ch0 ch1 ch2 off => packDecReq off 1 (lanes3 ch0 ch1 ch2)
  | .dec2 ch0 ch1 ch2 off => packDecReq off 2 (lanes3 ch0 ch1 ch2)
  | .dec3 ch0 ch1 ch2 off => packDecReq off 3 (lanes3 ch0 ch1 ch2)

/-- A row of the opcode maps of R50 and R51. Match and mask of a DEC row are given on bits 25:0 alone (R48). -/
structure OpcodeRow where
  mnemonic : String
  channel : Channel
  matchBits : Nat
  mask : Nat
  deriving DecidableEq, Repr

/-- The opcode map (R50, R51). -/
def opcodeTable : List OpcodeRow :=
  [⟨"ENC0", .enc, 0x00000, 0x30000⟩, ⟨"ENC1", .enc, 0x10000, 0x30000⟩,
   ⟨"ENC2", .enc, 0x20000, 0x30000⟩, ⟨"ENC3", .enc, 0x30000, 0x30000⟩,
   ⟨"DEC0", .dec, 0x0000000, 0x3000000⟩, ⟨"DEC1", .dec, 0x1000000, 0x3000000⟩,
   ⟨"DEC2", .dec, 0x2000000, 0x3000000⟩, ⟨"DEC3", .dec, 0x3000000, 0x3000000⟩]

/-- A word of a channel is an instance of a row. -/
def OpcodeRow.matches (r : OpcodeRow) (ch : Channel) (w : Nat) : Bool :=
  decide (r.channel = ch) && (w &&& r.mask == r.matchBits)

/-- The mnemonic of an instruction (R57). -/
def Instr.mnemonic : Instr → String
  | .enc0 _ _ => "ENC0"
  | .enc1 _ _ => "ENC1"
  | .enc2 _ _ => "ENC2"
  | .enc3 _ _ => "ENC3"
  | .dec0 _ _ _ _ => "DEC0"
  | .dec1 _ _ _ _ => "DEC1"
  | .dec2 _ _ _ _ => "DEC2"
  | .dec3 _ _ _ _ => "DEC3"

/-- The channel of a request of which only the width of its table row is known: ENC_REQ has 18 bits, three whole
bytes (R46), and every DEC_REQ row has its 26 low bits, four (R48). DESIGN CHOICE, log 6. -/
def channelOfWidth (nbits : Nat) : Channel := if nbits ≤ 24 then .enc else .dec

/-- The request read from a word numbered as spec/opcode_table.json numbers it. The table has no offset width, so it is read
at the suggested one (log 1, log 6). -/
def decodeTableWord (nbits w : Nat) : Option Instr :=
  match decode Config.suggested (channelOfWidth nbits) w with
  | .ok i => some i
  | .error _ => none

end Sys2Proof
end

