-- ==== Sys2Proof/Machine/Operands.lean ====
section
/-! DEFINITION. Operand assembly (30_encoding.md R54, R55; 20_memory.md R32): the value a block carries, its base-45
digits, and the truncations of the data path (00_scope.md R7). -/

namespace Sys2Proof.Machine

open Sys2Proof

/-- `trunc_N(v) = v % 2^N` (R7). -/
def trunc (n v : Nat) : Nat := v % 2 ^ n

/-- `trunc_8(v)` as a byte lane (R65). -/
def truncByte (v : Nat) : Byte := BitVec.ofNat 8 v

/-- The value of a full block of bytes: the first byte is the high byte (R32, R54). -/
def fullBytesValue (b0 b1 : Byte) : Nat := b0.toNat * 256 + b1.toNat

/-- The value of a short block: its byte (R54). -/
def shortBytesValue (b0 : Byte) : Nat := b0.toNat

/-- The value of a full block of digits, computed without truncation (R55). -/
def fullDigitsValue (c0 c1 c2 : Digit) : Nat := c0.val + 45 * c1.val + 2025 * c2.val

/-- The value of a short block of digits (R55). -/
def shortDigitsValue (c0 c1 : Digit) : Nat := c0.val + 45 * c1.val

/-- The least significant base-45 digit of a value: `c0`, the first character (R58, R9). -/
def digit0 (v : Nat) : Digit := ⟨v % 45, Nat.mod_lt _ (by decide)⟩

/-- The middle base-45 digit of a full block's value, `(v / 45) % 45` (R58). -/
def digit1 (v : Nat) : Digit := ⟨v / 45 % 45, Nat.mod_lt _ (by decide)⟩

theorem fullBytesValue_lt (b0 b1 : Byte) : fullBytesValue b0 b1 < 65536 := by
  have h0 := b0.isLt
  have h1 := b1.isLt
  unfold fullBytesValue
  omega

theorem shortBytesValue_lt (b0 : Byte) : shortBytesValue b0 < 256 := b0.isLt

/-- The most significant base-45 digit of a full block of bytes, `v / 2025`, 0 to 32 (R58, R63). -/
def fullDigit2 (b0 b1 : Byte) : Digit :=
  ⟨fullBytesValue b0 b1 / 2025, by have := fullBytesValue_lt b0 b1; omega⟩

/-- The second base-45 digit of a short block of bytes, `v / 45`, 0 to 5 (R58, R63). -/
def shortDigit1 (b0 : Byte) : Digit :=
  ⟨shortBytesValue b0 / 45, by have := shortBytesValue_lt b0; omega⟩

end Sys2Proof.Machine
end

