-- ==== Sys2Proof/Machine/Flags.lean ====
section
/-! DEFINITION. The status codes (60_exceptions.md R74, R80), the range check behind ERR_OVERFLOW (R66) and the offset each
cause records (R75). The codec has no flags register (R23): these codes of the response are its only status. -/

namespace Sys2Proof.Machine

open Sys2Proof

/-- The encoder's status codes (R80). -/
inductive EncStatus
  | ok
  | illegal
  deriving DecidableEq, Repr

/-- R13, R80: 0 OK, 1 ILLEGAL. -/
def EncStatus.code : EncStatus → BitVec 1
  | .ok => 0
  | .illegal => 1

/-- The decoder's status codes (R74). -/
inductive DecStatus
  | ok
  | cleanEnd
  | errInvalid
  | errOverflow
  | errLone
  deriving DecidableEq, Repr

/-- R74: 0 OK, 1 END, 2 ERR_INVALID, 3 ERR_OVERFLOW, 4 ERR_LONE; 5 to 7 are no status. -/
def DecStatus.code : DecStatus → BitVec 3
  | .ok => 0
  | .cleanEnd => 1
  | .errInvalid => 2
  | .errOverflow => 3
  | .errLone => 4

/-- R73: a response reports a CorruptInputError exactly when its status is 2, 3 or 4. -/
def isCorruptInput (status : BitVec 3) : Bool := status == 2 || status == 3 || status == 4

/-- R66: the range check of a full block, made on the full value. -/
def overflows (v : Nat) : Bool := decide (65535 < v)

/-- R75: the offset recorded `k` characters into the block, modulo `2^OFFSET_W`. -/
def errorOffset (offsetW off k : Nat) : Nat := trunc offsetW (off + k)

/-- R75: ERR_OVERFLOW records the offset immediately after the block. -/
def overflowDistance : Nat := 3

end Sys2Proof.Machine
end

