-- ==== Sys2Proof/Machine/State.lean ====
section
/-! DEFINITION. The state of the codec (10_state.md R21) as plain data, the reasons a step can stop, the values of the input
ports in one cycle (R11, R12, R14), the state right after reset and the state at power-up. -/

namespace Sys2Proof.Machine

open Sys2Proof

/-- Why the machine would stop with a fault: never. The codec has no trap, and an error is a status in the response
(60_exceptions.md R73, R78), so there is no constructor and no step faults (log 10). -/
inductive Fault
  deriving DecidableEq, Repr

/-- The ports of R95: the ones the host must not drive as a combinational function of the same unit's `*_in_ready`. -/
inductive LoopPort
  | encInValid | encRspReady | decInValid | decRspReady
  deriving DecidableEq, Repr

/-- Why a step has no meaning. -/
inductive Refusal
  /-- Raised by an arm of `exec` whose instruction has no meaning yet; none is left. Safe: nothing is claimed of it. -/
  | notModelled (mnemonic : String)
  /-- Raised by a step in whose cycle the host drives the named port combinationally from the same unit's `*_in_ready`: such a
  host "has no defined behaviour, and a model refuses it" (R95). Safe: no claim about such a cycle can be proved. -/
  | combinationalLoop (port : LoopPort)
  deriving DecidableEq, Repr

/-- The response register of ENC: the tuple of R19, widths of R13. -/
structure EncRsp where
  /-- `enc_rsp_status`: 0 OK, 1 ILLEGAL. -/
  status : BitVec 1
  /-- `enc_rsp_cnt`: characters produced. -/
  cnt : BitVec 2
  /-- `enc_rsp_chars`: `ch0` in bits 7:0. -/
  chars : BitVec 24
  deriving DecidableEq, Repr

/-- The response register of DEC: the tuple of R19, widths of R15. -/
structure DecRsp where
  /-- `dec_rsp_status`: 0 OK, 1 END, 2 ERR_INVALID, 3 ERR_OVERFLOW, 4 ERR_LONE. -/
  status : BitVec 3
  /-- `dec_rsp_nbytes`: raw bytes produced. -/
  nbytes : BitVec 2
  /-- `dec_rsp_consumed`: characters consumed. -/
  consumed : BitVec 2
  /-- `dec_rsp_data`: `byte0` in bits 7:0. -/
  data : BitVec 16
  /-- `dec_rsp_erroff`: a number of `OFFSET_W` bits (R5). -/
  erroff : Nat
  deriving DecidableEq, Repr

/-- The values of all input ports in one cycle (R11, R12, R14). Of `decInOff` the port's `OFFSET_W` wires carry the low
bits (log 8). -/
structure PortInputs where
  rst : Bool
  encInValid : Bool
  encInCnt : BitVec 2
  encInData : BitVec 16
  encRspReady : Bool
  decInValid : Bool
  decInCnt : BitVec 2
  decInChars : BitVec 24
  decInOff : Nat
  decRspReady : Bool
  deriving DecidableEq, Repr

/-- What the host does in one cycle (R10). -/
inductive HostCycle
  /-- It drives every input port with a level. -/
  | driven (p : PortInputs)
  /-- It drives the named port combinationally from that unit's `*_in_ready`, which R95 forbids (log 5). -/
  | loop (port : LoopPort)
  deriving DecidableEq, Repr

/-- The ten registers of R21, the build parameter, and what the host has settled for the coming cycles. -/
structure State where
  /-- The build parameter `OFFSET_W` (R5); not state of the hardware, and no step changes it (R24, log 1). -/
  cfg : Config
  /-- `enc_rsp_valid`. -/
  encRspValid : Bool
  /-- `enc_rsp_status`, `enc_rsp_cnt`, `enc_rsp_chars`. -/
  encRsp : EncRsp
  /-- `dec_rsp_valid`. -/
  decRspValid : Bool
  /-- `dec_rsp_status`, `dec_rsp_nbytes`, `dec_rsp_consumed`, `dec_rsp_data`, `dec_rsp_erroff`. -/
  decRsp : DecRsp
  /-- The model's own: what the host does in the coming cycles, the next one first (log 3). -/
  pins : List HostCycle
  /-- The model's own: how many edges have passed; picks the free draw of the inputs when `pins` is empty (log 3). -/
  cycle : Nat
  deriving DecidableEq, Repr

/-- Right after a reset edge: both valid bits 0 (R87). The payload registers are not reset and the spec gives them no value:
zero is the model's (DESIGN CHOICE, unsafe, log 2). The host has settled nothing yet (log 3). -/
def State.reset : State where
  cfg := Config.suggested
  encRspValid := false
  encRsp := ⟨0, 0, 0⟩
  decRspValid := false
  decRsp := ⟨0, 0, 0, 0, 0⟩
  pins := []
  cycle := 0

/-- At power-up, before any reset edge: every register holds a free value of its width, the valid bits too (R21, R90,
log 11), for any build parameter and any host. -/
def State.powerUp (cfg : Config) (pins : List HostCycle) : State where
  cfg := cfg
  encRspValid := Config.powerUp .encRspValid % 2 == 1
  encRsp := ⟨BitVec.ofNat 1 (Config.powerUp .encRspStatus), BitVec.ofNat 2 (Config.powerUp .encRspCnt),
    BitVec.ofNat 24 (Config.powerUp .encRspChars)⟩
  decRspValid := Config.powerUp .decRspValid % 2 == 1
  decRsp := ⟨BitVec.ofNat 3 (Config.powerUp .decRspStatus), BitVec.ofNat 2 (Config.powerUp .decRspNbytes),
    BitVec.ofNat 2 (Config.powerUp .decRspConsumed), BitVec.ofNat 16 (Config.powerUp .decRspData),
    Config.powerUp .decRspErroff % 2 ^ cfg.offsetW⟩
  pins := pins
  cycle := 0

end Sys2Proof.Machine
end

