-- ==== Sys2Proof/Machine/Tables.lean ====
section
/-! DEFINITION. The two read-only tables (20_memory.md R26, R27, R29): ENC_LUT from digit to character code and DEC_LUT from
byte to digit or INVALID. The codes are ASCII (R25, D7). -/

namespace Sys2Proof.Machine

open Sys2Proof

/-- The alphabet's codes in digit order (R26). -/
def encTable : List Byte :=
  [0x30, 0x31, 0x32, 0x33, 0x34, 0x35, 0x36, 0x37, 0x38, 0x39,   -- 0 to 9
   0x41, 0x42, 0x43, 0x44, 0x45, 0x46, 0x47, 0x48, 0x49, 0x4A,   -- A to J
   0x4B, 0x4C, 0x4D, 0x4E, 0x4F, 0x50, 0x51, 0x52, 0x53, 0x54]   -- K to T
  ++ [0x55, 0x56, 0x57, 0x58, 0x59, 0x5A]                        -- U to Z
  ++ [0x20, 0x24, 0x25, 0x2A, 0x2B, 0x2D, 0x2E, 0x2F, 0x3A]      -- space $ % * + - . / :

/-- A row of DEC_LUT whose sixteen entries are all INVALID. -/
def decRowInvalid : List (Option Digit) := List.replicate 16 none

/-- DEC_LUT row 2_ (R27). -/
def decRow2 : List (Option Digit) :=
  [some 36, none, none, none, some 37, some 38, none, none, none, none, some 39, some 40, none, some 41, some 42, some 43]

/-- DEC_LUT row 3_ (R27). -/
def decRow3 : List (Option Digit) :=
  [some 0, some 1, some 2, some 3, some 4, some 5, some 6, some 7, some 8, some 9, some 44, none, none, none, none, none]

/-- DEC_LUT row 4_ (R27). -/
def decRow4 : List (Option Digit) :=
  [none, some 10, some 11, some 12, some 13, some 14, some 15, some 16, some 17, some 18, some 19, some 20, some 21,
   some 22, some 23, some 24]

/-- DEC_LUT row 5_ (R27). -/
def decRow5 : List (Option Digit) :=
  [some 25, some 26, some 27, some 28, some 29, some 30, some 31, some 32, some 33, some 34, some 35, none, none, none,
   none, none]

/-- DEC_LUT, one row per high hex digit (R27): rows 0_, 1_, 6_, 7_ and 8_ to F_ are INVALID in every column. -/
def decRow (hi : Nat) : List (Option Digit) :=
  match hi with
  | 2 => decRow2
  | 3 => decRow3
  | 4 => decRow4
  | 5 => decRow5
  | _ => decRowInvalid

theorem encTable_length : encTable.length = 45 := rfl

/-- `ENC_LUT(i)` (R8, R26): every digit has an entry. -/
def encLut (d : Digit) : Byte := encTable[d.val]'(by rw [encTable_length]; exact d.isLt)

/-- `DEC_LUT(b)` (R8, R27): row = high hex digit, column = low hex digit; `none` is INVALID, whose physical form is not
fixed (D19). Every row has sixteen entries, so the default is never read. -/
def decLut (b : Byte) : Option Digit := (decRow (b.toNat / 16)).getD (b.toNat % 16) none

end Sys2Proof.Machine
end

