-- ==== Sys2Proof/Machine/Ops.lean ====
section
/-! DEFINITION. The named operations on the response registers (10_state.md R18, R19) and on outcomes. The codec takes no
exception (60_exceptions.md R78): an error is the response `corruptResponse`, loaded like any other, and there is
nothing to return from. -/

namespace Sys2Proof.Machine

open Sys2Proof

/-- R18, request transfer of ENC: all fields of the response register at once (R19), and its valid bit. -/
def loadEncRsp (r : EncRsp) (s : State) : State := { s with encRspValid := true, encRsp := r }

/-- R18, request transfer of DEC. -/
def loadDecRsp (r : DecRsp) (s : State) : State := { s with decRspValid := true, decRsp := r }

/-- R18, response transfer of ENC without a new request: the payload stays (R19). -/
def dropEncRsp (s : State) : State := { s with encRspValid := false }

/-- R18, response transfer of DEC without a new request. -/
def dropDecRsp (s : State) : State := { s with decRspValid := false }

/-- R86, R87: a reset edge clears both valid bits and changes nothing else. -/
def resetEdge (s : State) : State := { s with encRspValid := false, decRspValid := false }

/-- An encoder response (R47): status, and the characters of `chars` counted by `cnt`. -/
def encResponse (st : EncStatus) (cnt : BitVec 2) (chars : BitVec 24) : EncRsp := ⟨st.code, cnt, chars⟩

/-- A decoder response that reports no error: its `erroff` is 0 (R15, R75). -/
def cleanResponse (st : DecStatus) (nbytes consumed : BitVec 2) (data : BitVec 16) : DecRsp :=
  ⟨st.code, nbytes, consumed, data, 0⟩

/-- A CorruptInputError (R73): the cause as the status, what is emitted under it (R77), and the offset `k` characters
after `off` (R75). -/
def corruptResponse (offsetW : Nat) (st : DecStatus) (nbytes consumed : BitVec 2) (data : BitVec 16) (off k : Nat) :
    DecRsp :=
  ⟨st.code, nbytes, consumed, data, errorOffset offsetW off k⟩

/-- The response of an examined lane `k` that maps to INVALID: no byte, nothing consumed (R72, R77). -/
def invalidCharResponse (offsetW off k : Nat) : DecRsp := corruptResponse offsetW .errInvalid 0 0 0 off k

/-- The two lanes of a decoded full block: `byte0 = trunc_8(v / 256)` in bits 7:0, `byte1 = trunc_8(v)` above it (R65;
under ERR_OVERFLOW the truncation of `byte0` is the spec's decision D13). -/
def fullBlockBytes (v : Nat) : BitVec 16 := lanes2 (truncByte (v / 256)) (truncByte v)

/-- Two updates at one edge, the second on what the first leaves. -/
def andThen (o : Host.Outcome State Fault Refusal) (k : State → Host.Outcome State Fault Refusal) :
    Host.Outcome State Fault Refusal :=
  match o with
  | .next s => k s
  | .fault f => .fault f
  | .refused r => .refused r

end Sys2Proof.Machine
end

