-- ==== Sys2Proof/Machine/Decoder.lean ====
section
/-! DEFINITION. The decoder's operations (41_decoder.md R65 to R72): what each writes at its request transfer. The lanes are
examined lowest first, and the value is computed only when all of them are valid (60_exceptions.md R76). -/

namespace Sys2Proof.Machine

open Sys2Proof

/-- R65, `cnt` = 2: one byte, `v % 256`, with no range check (R69). -/
def decShortResponse (offsetW : Nat) (ch0 ch1 : Byte) (off : Nat) : DecRsp :=
  match decLut ch0 with
  | none => invalidCharResponse offsetW off 0
  | some c0 =>
    match decLut ch1 with
    | none => invalidCharResponse offsetW off 1
    | some c1 => cleanResponse .ok 1 2 (lanes2 (truncByte (shortDigitsValue c0 c1)) 0)

/-- R65, `cnt` = 3, all three digits valid: two bytes, with ERR_OVERFLOW above 65535 (R66, R71). -/
def decFullBlock (offsetW : Nat) (c0 c1 c2 : Digit) (off : Nat) : DecRsp :=
  let v := fullDigitsValue c0 c1 c2
  if overflows v then corruptResponse offsetW .errOverflow 2 3 (fullBlockBytes v) off overflowDistance
  else cleanResponse .ok 2 3 (fullBlockBytes v)

/-- R65, `cnt` = 3 (R70). -/
def decFullResponse (offsetW : Nat) (ch0 ch1 ch2 : Byte) (off : Nat) : DecRsp :=
  match decLut ch0 with
  | none => invalidCharResponse offsetW off 0
  | some c0 =>
    match decLut ch1 with
    | none => invalidCharResponse offsetW off 1
    | some c1 =>
      match decLut ch2 with
      | none => invalidCharResponse offsetW off 2
      | some c2 => decFullBlock offsetW c0 c1 c2 off

/-- DEC0: clean end (R67). Lanes and offset are ignored (R53, R67). -/
def execDec0 (_ch0 _ch1 _ch2 : Byte) (_off : Nat) (s : State) : Host.Outcome State Fault Refusal :=
  .next (loadDecRsp (cleanResponse .cleanEnd 0 0 0) s)

/-- DEC1: lone trailing character, always ERR_LONE at `off`; no lane is looked up (R68). -/
def execDec1 (_ch0 _ch1 _ch2 : Byte) (off : Nat) (s : State) : Host.Outcome State Fault Refusal :=
  .next (loadDecRsp (corruptResponse s.cfg.offsetW .errLone 0 0 0 off 0) s)

/-- DEC2: decode a short block (R69). `ch2` is ignored (R53). -/
def execDec2 (ch0 ch1 _ch2 : Byte) (off : Nat) (s : State) : Host.Outcome State Fault Refusal :=
  .next (loadDecRsp (decShortResponse s.cfg.offsetW ch0 ch1 off) s)

/-- DEC3: decode a full block (R70). -/
def execDec3 (ch0 ch1 ch2 : Byte) (off : Nat) (s : State) : Host.Outcome State Fault Refusal :=
  .next (loadDecRsp (decFullResponse s.cfg.offsetW ch0 ch1 ch2 off) s)

end Sys2Proof.Machine
end

