-- ==== Sys2Proof/Machine/Encoder.lean ====
section
/-! DEFINITION. The encoder's operations (40_encoder.md R58 to R62): what each writes at its request transfer. -/

namespace Sys2Proof.Machine

open Sys2Proof

/-- R58, `cnt` = 2: three characters, the least significant digit first. -/
def encFullResponse (b0 b1 : Byte) : EncRsp :=
  let v := fullBytesValue b0 b1
  encResponse .ok 3 (lanes3 (encLut (digit0 v)) (encLut (digit1 v)) (encLut (fullDigit2 b0 b1)))

/-- R58, `cnt` = 1: two characters, lane 2 is 0x00. -/
def encShortResponse (b0 : Byte) : EncRsp :=
  encResponse .ok 2 (lanes3 (encLut (digit0 (shortBytesValue b0))) (encLut (shortDigit1 b0)) 0)

/-- ENC0: encode an empty block (R61). The lanes are ignored (R53). -/
def execEnc0 (_b0 _b1 : Byte) (s : State) : Host.Outcome State Fault Refusal :=
  .next (loadEncRsp (encResponse .ok 0 0) s)

/-- ENC1: encode a short block (R60). `b1` is ignored (R53). -/
def execEnc1 (b0 _b1 : Byte) (s : State) : Host.Outcome State Fault Refusal :=
  .next (loadEncRsp (encShortResponse b0) s)

/-- ENC2: encode a full block (R59). -/
def execEnc2 (b0 b1 : Byte) (s : State) : Host.Outcome State Fault Refusal :=
  .next (loadEncRsp (encFullResponse b0 b1) s)

/-- ENC3: the reserved request, answered ILLEGAL with no characters (R52, R62). The lanes are ignored (R53). -/
def execEnc3 (_b0 _b1 : Byte) (s : State) : Host.Outcome State Fault Refusal :=
  .next (loadEncRsp (encResponse .illegal 0 0) s)

end Sys2Proof.Machine
end

