-- ==== Sys2Proof/Machine/Dispatch.lean ====
section
/-! DEFINITION. What an operation does to the state at its request transfer (10_state.md R18, R19): one meaning per
constructor of Instr. -/

namespace Sys2Proof.Machine

open Sys2Proof

def exec (i : Instr) (s : State) : Host.Outcome State Fault Refusal :=
  match i with
  | .enc0 b0 b1 => Sys2Proof.Machine.execEnc0 b0 b1 s
  | .enc1 b0 b1 => Sys2Proof.Machine.execEnc1 b0 b1 s
  | .enc2 b0 b1 => Sys2Proof.Machine.execEnc2 b0 b1 s
  | .enc3 b0 b1 => Sys2Proof.Machine.execEnc3 b0 b1 s
  | .dec0 ch0 ch1 ch2 off => Sys2Proof.Machine.execDec0 ch0 ch1 ch2 off s
  | .dec1 ch0 ch1 ch2 off => Sys2Proof.Machine.execDec1 ch0 ch1 ch2 off s
  | .dec2 ch0 ch1 ch2 off => Sys2Proof.Machine.execDec2 ch0 ch1 ch2 off s
  | .dec3 ch0 ch1 ch2 off => Sys2Proof.Machine.execDec3 ch0 ch1 ch2 off s

end Sys2Proof.Machine
end

