-- ==== Sys2Proof/Machine/Ports.lean ====
section
/-! DEFINITION. The ports of both units (10_state.md R11 to R17, R20): the input levels of a cycle, the outputs, and the
transfers at the edge that ends it. -/

namespace Sys2Proof.Machine

open Sys2Proof

/-- One `encode_block` call as the ports carry it (R12). -/
structure EncReq where
  cnt : BitVec 2
  data : BitVec 16
  deriving DecidableEq, Repr

/-- One `decode_block` call as the ports carry it (R14). -/
structure DecReq where
  cnt : BitVec 2
  chars : BitVec 24
  off : Nat
  deriving DecidableEq, Repr

/-- The free draw of every input port in a cycle nothing is settled about (R10, log 3). A draw is a level on each port, so it
keeps the host duty of R95. -/
def drawnInputs (cycle : Nat) : PortInputs where
  rst := Config.drawnInput cycle .rst % 2 == 1
  encInValid := Config.drawnInput cycle .encInValid % 2 == 1
  encInCnt := BitVec.ofNat 2 (Config.drawnInput cycle .encInCnt)
  encInData := BitVec.ofNat 16 (Config.drawnInput cycle .encInData)
  encRspReady := Config.drawnInput cycle .encRspReady % 2 == 1
  decInValid := Config.drawnInput cycle .decInValid % 2 == 1
  decInCnt := BitVec.ofNat 2 (Config.drawnInput cycle .decInCnt)
  decInChars := BitVec.ofNat 24 (Config.drawnInput cycle .decInChars)
  decInOff := Config.drawnInput cycle .decInOff
  decRspReady := Config.drawnInput cycle .decRspReady % 2 == 1

/-- What the host does in the current cycle: what it has settled, else the free draw (R10, log 3). -/
def currentCycle (s : State) : HostCycle :=
  match s.pins with
  | [] => .driven (drawnInputs s.cycle)
  | c :: _ => c

/-- The current cycle is over: the host's next one comes up. -/
def nextCycle (s : State) : State := { s with pins := s.pins.tail, cycle := s.cycle + 1 }

/-- `enc_in_ready`: the register is empty or is being emptied, and not during reset (R17). -/
def encInReady (s : State) (p : PortInputs) : Bool := !p.rst && (!s.encRspValid || p.encRspReady)

/-- `dec_in_ready` (R17). -/
def decInReady (s : State) (p : PortInputs) : Bool := !p.rst && (!s.decRspValid || p.decRspReady)

/-- The request that ENC samples at the edge ending this cycle, if a request transfer happens there (R16). -/
def encRequest (s : State) (p : PortInputs) : Option EncReq :=
  if p.encInValid && encInReady s p then some ⟨p.encInCnt, p.encInData⟩ else none

/-- The request that DEC samples (R16): of the offset, what `OFFSET_W` wires carry (R14, log 8). -/
def decRequest (s : State) (p : PortInputs) : Option DecReq :=
  if p.decInValid && decInReady s p then some ⟨p.decInCnt, p.decInChars, trunc s.cfg.offsetW p.decInOff⟩ else none

/-- The response the host takes from ENC at the edge ending this cycle (R16; none at a reset edge, R86). -/
def encResponseTaken (s : State) (p : PortInputs) : Option EncRsp :=
  if !p.rst && s.encRspValid && p.encRspReady then some s.encRsp else none

/-- The response the host takes from DEC (R16, R86). -/
def decResponseTaken (s : State) (p : PortInputs) : Option DecRsp :=
  if !p.rst && s.decRspValid && p.decRspReady then some s.decRsp else none

/-- The operation a sampled encoder request names (R50). -/
def EncReq.instr (r : EncReq) : Instr := decodeEncReq (packEncReq r.cnt r.data)

/-- The operation a sampled decoder request names (R51). -/
def DecReq.instr (r : DecReq) : Instr := decodeDecReq r.off (packDecReqLow r.cnt r.chars)

/-- All output ports (R13, R15, R17). -/
structure PortOutputs where
  encInReady : Bool
  encRspValid : Bool
  encRspStatus : BitVec 1
  encRspCnt : BitVec 2
  encRspChars : BitVec 24
  decInReady : Bool
  decRspValid : Bool
  decRspStatus : BitVec 3
  decRspNbytes : BitVec 2
  decRspConsumed : BitVec 2
  decRspData : BitVec 16
  decRspErroff : Nat
  deriving DecidableEq, Repr

/-- The outputs in a cycle: the registers, and the two combinational `*_in_ready` (R19, R20). -/
def outputs (s : State) (p : PortInputs) : PortOutputs where
  encInReady := encInReady s p
  encRspValid := s.encRspValid
  encRspStatus := s.encRsp.status
  encRspCnt := s.encRsp.cnt
  encRspChars := s.encRsp.chars
  decInReady := decInReady s p
  decRspValid := s.decRspValid
  decRspStatus := s.decRsp.status
  decRspNbytes := s.decRsp.nbytes
  decRspConsumed := s.decRsp.consumed
  decRspData := s.decRsp.data
  decRspErroff := s.decRsp.erroff

/-- What a host that keeps R93 learns from ENC in a cycle: the payload only under `enc_rsp_valid` (log 15). -/
def encSample (s : State) : Option EncRsp := if s.encRspValid then some s.encRsp else none

/-- What a host that keeps R93 learns from DEC in a cycle. -/
def decSample (s : State) : Option DecRsp := if s.decRspValid then some s.decRsp else none

/-- The ENC_RSP word `{enc_rsp_status, enc_rsp_cnt, enc_rsp_chars}` (R47). -/
def EncRsp.word (r : EncRsp) : BitVec 27 := r.status ++ r.cnt ++ r.chars

/-- Bits 22:0 of the DEC_RSP word, `{status, nbytes, consumed, data}` (R49). -/
def DecRsp.wordLow (r : DecRsp) : BitVec 23 := r.status ++ r.nbytes ++ r.consumed ++ r.data

/-- The whole DEC_RSP word as a number: `erroff` starts at bit 23 (R49). -/
def DecRsp.word (r : DecRsp) : Nat := r.erroff * 2 ^ 23 + r.wordLow.toNat

/-- The response an ENC_RSP word packs (R47). -/
def EncRsp.ofWord (w : BitVec 27) : EncRsp := ⟨w.extractLsb' 26 1, w.extractLsb' 24 2, w.extractLsb' 0 24⟩

/-- The response a DEC_RSP word packs (R49). -/
def DecRsp.ofWord (w : Nat) : DecRsp :=
  let low := BitVec.ofNat 23 w
  ⟨low.extractLsb' 20 3, low.extractLsb' 18 2, low.extractLsb' 16 2, low.extractLsb' 0 16, w / 2 ^ 23⟩

/-- A host cycle that offers one request and takes an old response of that unit, so that the unit is ready in any state; the
other unit is offered nothing and keeps its response. -/
def offering : Option Instr → PortInputs
  | none => ⟨false, false, 0, 0, false, false, 0, 0, 0, false⟩
  | some i =>
    match i with
    | .enc0 b0 b1 => ⟨false, true, 0, lanes2 b0 b1, true, false, 0, 0, 0, false⟩
    | .enc1 b0 b1 => ⟨false, true, 1, lanes2 b0 b1, true, false, 0, 0, 0, false⟩
    | .enc2 b0 b1 => ⟨false, true, 2, lanes2 b0 b1, true, false, 0, 0, 0, false⟩
    | .enc3 b0 b1 => ⟨false, true, 3, lanes2 b0 b1, true, false, 0, 0, 0, false⟩
    | .dec0 ch0 ch1 ch2 off => ⟨false, false, 0, 0, false, true, 0, lanes3 ch0 ch1 ch2, off, true⟩
    | .dec1 ch0 ch1 ch2 off => ⟨false, false, 0, 0, false, true, 1, lanes3 ch0 ch1 ch2, off, true⟩
    | .dec2 ch0 ch1 ch2 off => ⟨false, false, 0, 0, false, true, 2, lanes3 ch0 ch1 ch2, off, true⟩
    | .dec3 ch0 ch1 ch2 off => ⟨false, false, 0, 0, false, true, 3, lanes3 ch0 ch1 ch2, off, true⟩

end Sys2Proof.Machine
end

