-- ==== Sys2Proof/Machine/Cycle.lean ====
section
/-! DEFINITION. The per-cycle state update of both units (10_state.md R18; 70_reset_and_hazards.md R86). -/

namespace Sys2Proof.Machine

open Sys2Proof

/-- R18 for U = ENC, outside reset: a request transfer runs its operation; else a response transfer empties the register;
else nothing changes. -/
def encEdge (p : PortInputs) (s : State) : Host.Outcome State Fault Refusal :=
  match encRequest s p with
  | some r => exec r.instr s
  | none => .next (if s.encRspValid && p.encRspReady then dropEncRsp s else s)

/-- R18 for U = DEC, outside reset. -/
def decEdge (p : PortInputs) (s : State) : Host.Outcome State Fault Refusal :=
  match decRequest s p with
  | some r => exec r.instr s
  | none => .next (if s.decRspValid && p.decRspReady then dropDecRsp s else s)

/-- One rising edge with the given input levels: reset takes precedence (R86), else both units update. They share no register
(R10), so that DEC's update after ENC's reads the values DEC had before the edge (R8, log 9). -/
def edge (p : PortInputs) (s : State) : Host.Outcome State Fault Refusal :=
  if p.rst then .next (resetEdge s) else andThen (encEdge p s) (decEdge p)

/-- One clock cycle. A host that closes a combinational loop in it is refused (R95). -/
def clockCycle (s : State) : Host.Outcome State Fault Refusal :=
  match currentCycle s with
  | .loop port => .refused (.combinationalLoop port)
  | .driven p => edge p (nextCycle s)

/-- `s` with the host settled to offer, in the coming cycle, the request whose word is `w`; what it had settled before comes
after that. A number that is no request word of its channel is offered by nobody (log 4). -/
def presentWord (s : State) (nbits w : Nat) : State :=
  match decode s.cfg (channelOfWidth nbits) w with
  | .ok i => { s with pins := .driven (offering (some i)) :: s.pins }
  | .error _ => { s with pins := .driven (offering none) :: s.pins }

end Sys2Proof.Machine
end

