-- ==== Sys2Proof/Machine/Step.lean ====
section
/-! DEFINITION. One step of the machine is one clock cycle of both units (10_state.md R10, R11, R18). -/

namespace Sys2Proof.Machine

open Sys2Proof

/-- One rising edge of `clk`. -/
def step (s : State) : Host.Outcome State Fault Refusal := clockCycle s

/-- The codec fetches nothing (R22): it runs the request the host offers. So the host offers the word in the very next cycle
(log 4). -/
def State.withFetchWord (s : State) (nbits w : Nat) : State := presentWord s nbits w

end Sys2Proof.Machine
end

