-- ==== Sys2Proof/Machine/HostContract.lean ====
section
/-! DEFINITION. The contract of the host software that drives the block (20_memory.md R38 to R43; the pseudo-instructions ENCS and DECS
of 30_encoding.md R57). It binds the host, not the hardware. Each request and its response are one atomic event, as
70_reset_and_hazards.md R97 allows (log 14). -/

namespace Sys2Proof.Machine

open Sys2Proof

/-- R39. -/
def encodedLength (n : Nat) : Nat := n / 2 * 3 + (if n % 2 = 1 then 2 else 0)

/-- R42. -/
def decodedLengthUpperBound (m : Nat) : Nat := m / 3 * 2 + (if m % 3 ≠ 0 then 1 else 0)

/-- The characters a response produced, in lane order (R38). -/
def EncRsp.charList (r : EncRsp) : List Byte := [lane 0 r.chars, lane 1 r.chars, lane 2 r.chars].take r.cnt.toNat

/-- The bytes a response emitted, in lane order (R40, R41). -/
def DecRsp.byteList (r : DecRsp) : List Byte := [lane 0 r.data, lane 1 r.data].take r.nbytes.toNat

/-- The requests of a whole-buffer encode in order: the expansion of ENCS (R38, R57). -/
def encsRequests : List Byte → List Instr
  | [] => []
  | [b0] => [Asm.enc1 b0]
  | b0 :: b1 :: rest => Asm.enc2 b0 b1 :: encsRequests rest

/-- One request to ENC and the response it gives. -/
def askEnc (s : State) (i : Instr) : Option (EncRsp × State) :=
  match exec i s with
  | .next t => some (t.encRsp, t)
  | .fault _ => none
  | .refused _ => none

/-- One request to DEC and the response it gives. -/
def askDec (s : State) (i : Instr) : Option (DecRsp × State) :=
  match exec i s with
  | .next t => some (t.decRsp, t)
  | .fault _ => none
  | .refused _ => none

/-- The characters that a sequence of encoder requests gives, appended in order (R38). -/
def askAllEnc : State → List Instr → Option (List Byte)
  | _, [] => some []
  | s, i :: rest =>
    match askEnc s i with
    | none => none
    | some (r, t) => (askAllEnc t rest).map (r.charList ++ ·)

/-- Whole-buffer encode (R38). -/
def hostEncode (s : State) (src : List Byte) : Option (List Byte) := askAllEnc s (encsRequests src)

/-- What a whole-buffer decode returns (R41): the bytes decoded so far, and the status and offset of the error that stopped
it, if one did. -/
structure DecodeResult where
  bytes : List Byte
  error : Option (BitVec 3 × Nat)
  deriving DecidableEq, Repr

/-- The request of R40 at position `pos`: `cnt = min(m - pos, 3)`, lanes `ch_k = src[pos + k]` for `k < cnt`, on every other
lane `k` any value (`pad pos k`, one for each request and lane), and `dec_in_off = pos` on its `OFFSET_W` wires. -/
def decsRequest (offsetW : Nat) (pad : Nat → Nat → Byte) (src : List Byte) (pos : Nat) : DecReq where
  cnt := BitVec.ofNat 2 (min (src.length - pos) 3)
  chars := lanes3 (src.getD pos (pad pos 0)) (src.getD (pos + 1) (pad pos 1)) (src.getD (pos + 2) (pad pos 2))
  off := trunc offsetW pos

/-- The loop of R40 and R41 from position `pos`, the expansion of DECS (R57), for at most `fuel` requests. -/
def hostDecodeFrom (pad : Nat → Nat → Byte) (src : List Byte) : (fuel : Nat) → (pos : Nat) → State → Option DecodeResult
  | 0, _, _ => none
  | fuel + 1, pos, s =>
    match askDec s (decsRequest s.cfg.offsetW pad src pos).instr with
    | none => none
    | some (r, t) =>
      if r.status = DecStatus.cleanEnd.code then some ⟨[], none⟩
      else if r.status = DecStatus.ok.code then
        (hostDecodeFrom pad src fuel (pos + r.consumed.toNat) t).map fun d => ⟨r.byteList ++ d.bytes, d.error⟩
      else some ⟨r.byteList, some (r.status, r.erroff)⟩

/-- Whole-buffer decode (R40, R41). Each successful request consumes a character, so one request more than there are
characters is enough. -/
def hostDecode (pad : Nat → Nat → Byte) (s : State) (src : List Byte) : Option DecodeResult :=
  hostDecodeFrom pad src (src.length + 1) 0 s

end Sys2Proof.Machine
end

