-- ==== Sys2Proof/Machine/Trace.lean ====
section
/-! DEFINITION. What crosses the ports in a run of cycles (10_state.md R16): the transfers of each unit in order, for the claims
about order (20_memory.md R35). -/

namespace Sys2Proof.Machine

open Sys2Proof

/-- The reset level and the transfers at the edge that ends one cycle. -/
structure CycleEvents where
  rst : Bool
  encRequest : Option EncReq
  encResponse : Option EncRsp
  decRequest : Option DecReq
  decResponse : Option DecRsp
  deriving DecidableEq, Repr

/-- The events of one cycle with the given input levels. -/
def cycleEvents (s : State) (p : PortInputs) : CycleEvents where
  rst := p.rst
  encRequest := encRequest s p
  encResponse := encResponseTaken s p
  decRequest := decRequest s p
  decResponse := decResponseTaken s p

/-- The events of the next `n` cycles and the state after them, if no cycle among them is refused. -/
def trace : Nat → State → Option (List CycleEvents × State)
  | 0, s => some ([], s)
  | n + 1, s =>
    match currentCycle s, step s with
    | .driven p, .next s' => (trace n s').map fun r => (cycleEvents s p :: r.1, r.2)
    | .driven _, .fault _ => none
    | .driven _, .refused _ => none
    | .loop _, _ => none

/-- The response ENC holds, not yet taken: at most one (R35). -/
def heldEnc (s : State) : List EncRsp := if s.encRspValid then [s.encRsp] else []

/-- The response DEC holds, not yet taken. -/
def heldDec (s : State) : List DecRsp := if s.decRspValid then [s.decRsp] else []

end Sys2Proof.Machine
end

