-- ==== Sys2Proof/Safety.lean ====
section
/-! DEFINITION. What the claims are stated in: which responses are legal (10_state.md R21; 60_exceptions.md R74, R75, R77), the
invariant of a run, and the functions ENCODE and DECODE transcribed line by line from the spec's pseudocode (R58, R65)
on plain numbers, apart from the meanings the machine runs. -/

namespace Sys2Proof.Safety

open Sys2Proof Sys2Proof.Machine

/-- A code of the alphabet (R26). -/
def inAlphabet (b : Byte) : Bool := encTable.contains b

/-- A response ENC can give (R21, R47): ILLEGAL or OK with no characters, or OK with two or three alphabet codes and 0x00 in
every lane beyond them. -/
def encLegal (r : EncRsp) : Bool :=
  (r.cnt == 0 && r.chars == 0)
  || (r.status == 0 && r.cnt == 2 && inAlphabet (lane 0 r.chars) && inAlphabet (lane 1 r.chars) && lane 2 r.chars == 0)
  || (r.status == 0 && r.cnt == 3 && inAlphabet (lane 0 r.chars) && inAlphabet (lane 1 r.chars)
      && inAlphabet (lane 2 r.chars))

/-- A response DEC can give (R21, R49, R74, R75, R77): its output and offset are those of its status, and the status is none of 5
to 7. -/
def decLegal (r : DecRsp) : Bool :=
  (r.status == 0 && r.nbytes == 1 && r.consumed == 2 && lane 1 r.data == 0 && r.erroff == 0)
  || (r.status == 0 && r.nbytes == 2 && r.consumed == 3 && r.erroff == 0)
  || (r.status == 1 && r.nbytes == 0 && r.consumed == 0 && r.data == 0 && r.erroff == 0)
  || (r.status == 2 && r.nbytes == 0 && r.consumed == 0 && r.data == 0)
  || (r.status == 3 && r.nbytes == 2 && r.consumed == 3)
  || (r.status == 4 && r.nbytes == 0 && r.consumed == 0 && r.data == 0)

/-- The invariant of a run: the build parameter is one R5 allows, the offset register holds a number of its width, and a
response that a unit holds is one it can give. A payload under valid = 0 may be anything (R21). -/
structure Inv (s : State) : Prop where
  cfg_wf : s.cfg.wf = true
  erroff_fits : s.decRsp.erroff < 2 ^ s.cfg.offsetW
  enc_legal : s.encRspValid = true → encLegal s.encRsp = true
  dec_legal : s.decRspValid = true → decLegal s.decRsp = true

/-- `{x2, x1, x0}` of three character codes given as digit indices (R58). -/
def refChars (i0 i1 i2 : Nat) : BitVec 24 :=
  let code := fun i => (encTable.getD i 0).toNat
  BitVec.ofNat 24 (code i0 + 256 * code i1 + 65536 * code i2)

/-- ENCODE(cnt, data), R58. -/
def refEncode (cnt : BitVec 2) (data : BitVec 16) : EncRsp :=
  let b0 := data.toNat % 256
  let b1 := data.toNat / 256
  match cnt.toNat with
  | 2 =>
    let v := b0 * 256 + b1
    ⟨0, 3, refChars (v % 45) (v / 45 % 45) (v / 2025)⟩
  | 1 => ⟨0, 2, BitVec.ofNat 24 ((refChars (b0 % 45) (b0 / 45) 0).toNat % 65536)⟩
  | 0 => ⟨0, 0, 0⟩
  | _ => ⟨1, 0, 0⟩

/-- The digit of a character: its position in the alphabet (R26, R27). -/
def refDigit (b : Nat) : Option Nat := encTable.idxOf? (BitVec.ofNat 8 b)

/-- The value of digits in stream order, the first the least significant (R9, R65). -/
def refValue : List Nat → Nat
  | [] => 0
  | c :: rest => c + 45 * refValue rest

/-- DECODE(cnt, chars, off), R65. -/
def refDecode (offsetW : Nat) (cnt : BitVec 2) (chars : BitVec 24) (off : Nat) : DecRsp :=
  let n := cnt.toNat
  let ch := [chars.toNat % 256, chars.toNat / 256 % 256, chars.toNat / 65536].take n
  if n = 0 then ⟨1, 0, 0, 0, 0⟩
  else if n = 1 then ⟨4, 0, 0, 0, off % 2 ^ offsetW⟩
  else
    match ch.findIdx? (fun b => (refDigit b).isNone) with
    | some k => ⟨2, 0, 0, 0, (off + k) % 2 ^ offsetW⟩
    | none =>
      let v := refValue (ch.filterMap refDigit)
      if n = 2 then ⟨0, 1, 2, BitVec.ofNat 16 (v % 256), 0⟩
      else
        let data := BitVec.ofNat 16 (v % 256 * 256 + v / 256 % 256)
        if v > 65535 then ⟨3, 2, 3, data, (off + 3) % 2 ^ offsetW⟩ else ⟨0, 2, 3, data, 0⟩

end Sys2Proof.Safety
end

