-- ==== Sys2Proof/Certificates/Slice0/Obligations.lean ====
section
/-! DEFINITION. The statements for the provers. Each docstring names the rule of spec/ it formalises. A statement about
every state covers the states at power-up, whose registers hold any value (10_state.md R21). -/

open Sys2Proof Sys2Proof.Machine Sys2Proof.Safety

/-! ## Reset and power-up -/

/-- R91 (an inference the spec marks as derived): after reset both units are ready in the first cycle without `rst`,
whatever else the host drives. -/
def Obligations.ReadyAfterReset : Prop :=
  ∀ p q : PortInputs, ∀ s t : State, currentCycle s = .driven p → p.rst = true → step s = .next t → q.rst = false →
    (outputs t q).encInReady = true ∧ (outputs t q).decInReady = true

/-- R86: a reset edge clears both valid bits, changes no other register, and transfers nothing. -/
def Obligations.ResetEdgeClearsOnlyValidBits : Prop :=
  ∀ (s : State) (p : PortInputs), currentCycle s = .driven p → p.rst = true →
    step s = .next { s with encRspValid := false, decRspValid := false, pins := s.pins.tail, cycle := s.cycle + 1 } ∧
    encRequest s p = none ∧ decRequest s p = none ∧ encResponseTaken s p = none ∧ decResponseTaken s p = none ∧
    encInReady s p = false ∧ decInReady s p = false

/-- Derived from R86, R90: one reset edge brings any state whose offset register is a number of its width into the
invariant, the state at power-up among them. -/
def Obligations.ResetEdgeEstablishesInvariant : Prop :=
  (∀ (s : State) (p : PortInputs), s.cfg.wf = true → s.decRsp.erroff < 2 ^ s.cfg.offsetW →
    currentCycle s = .driven p → p.rst = true → ∃ t, step s = .next t ∧ Inv t) ∧
  (∀ (c : Config) (p : PortInputs) (rest : List HostCycle), c.wf = true → p.rst = true →
    ∃ t, step (State.powerUp c (.driven p :: rest)) = .next t ∧ Inv t)

/-! ## Handshake and the per-cycle step -/

/-- R17: `*_in_ready` is 1 exactly when `rst` is 0 and the unit's response register is empty or is being emptied. -/
def Obligations.ReadyFollowsRegisterAndReset : Prop :=
  ∀ (s : State) (p : PortInputs),
    ((outputs s p).encInReady = true ↔ p.rst = false ∧ (s.encRspValid = false ∨ p.encRspReady = true)) ∧
    ((outputs s p).decInReady = true ↔ p.rst = false ∧ (s.decRspValid = false ∨ p.decRspReady = true)) ∧
    ∀ v w : Bool, encInReady s { p with encInValid := v, decInValid := w } = encInReady s p ∧
      decInReady s { p with encInValid := v, decInValid := w } = decInReady s p

/-- R20: every output but `*_in_ready` IS its register, the valid bits' and the payload's, so it depends on no input of the
same cycle; `*_in_ready` depends on `rst` and the unit's `*_rsp_ready` only. -/
def Obligations.OutputsAreRegistered : Prop :=
  ∀ (s : State) (p q : PortInputs),
    ((outputs s p).encRspValid = s.encRspValid ∧ (outputs s p).encRspStatus = s.encRsp.status ∧
      (outputs s p).encRspCnt = s.encRsp.cnt ∧ (outputs s p).encRspChars = s.encRsp.chars) ∧
    ((outputs s p).decRspValid = s.decRspValid ∧ (outputs s p).decRspStatus = s.decRsp.status ∧
      (outputs s p).decRspNbytes = s.decRsp.nbytes ∧ (outputs s p).decRspConsumed = s.decRsp.consumed ∧
      (outputs s p).decRspData = s.decRsp.data ∧ (outputs s p).decRspErroff = s.decRsp.erroff) ∧
    { outputs s p with encInReady := false, decInReady := false } =
      { outputs s q with encInReady := false, decInReady := false } ∧
    (p.rst = q.rst → p.encRspReady = q.encRspReady → (outputs s p).encInReady = (outputs s q).encInReady) ∧
    (p.rst = q.rst → p.decRspReady = q.decRspReady → (outputs s p).decInReady = (outputs s q).decInReady)

/-- R18, with `F_U` the functions of R58 and R65 transcribed in Safety.lean: in every cycle that is not refused, each
unit's valid bit and payload are what the rule's case says, and the host's next cycle comes up. A held response is never
overwritten: at an edge with a request transfer, the host takes it. -/
def Obligations.CycleUpdatesBothUnits : Prop :=
  ∀ (s : State) (p : PortInputs), currentCycle s = .driven p → ∃ t, step s = .next t ∧
    (t.encRspValid, t.encRsp) =
      (if p.rst then (false, s.encRsp)
       else if p.encInValid && encInReady s p then (true, refEncode p.encInCnt p.encInData)
       else if s.encRspValid && p.encRspReady then (false, s.encRsp)
       else (s.encRspValid, s.encRsp)) ∧
    (t.decRspValid, t.decRsp) =
      (if p.rst then (false, s.decRsp)
       else if p.decInValid && decInReady s p then
         (true, refDecode s.cfg.offsetW p.decInCnt p.decInChars (p.decInOff % 2 ^ s.cfg.offsetW))
       else if s.decRspValid && p.decRspReady then (false, s.decRsp)
       else (s.decRspValid, s.decRsp)) ∧
    t.cfg = s.cfg ∧ t.pins = s.pins.tail ∧ t.cycle = s.cycle + 1 ∧
    (encRequest s p ≠ none → s.encRspValid = true → encResponseTaken s p = some s.encRsp) ∧
    (decRequest s p ≠ none → s.decRspValid = true → decResponseTaken s p = some s.decRsp)

/-- A cycle in which ENC accepts a request, and nothing happens on DEC, runs the decoded operation (R18, R50). -/
def Obligations.StepRunsEncoderRequest : Prop :=
  ∀ (s : State) (p : PortInputs) (i : Instr), currentCycle s = .driven p →
    p.encInValid = true → encInReady s p = true →
    decode s.cfg .enc (packEncReq p.encInCnt p.encInData).toNat = .ok i →
    p.decInValid = false → (s.decRspValid = false ∨ p.decRspReady = false) →
    step s = exec i { s with pins := s.pins.tail, cycle := s.cycle + 1 }

/-- A cycle in which DEC accepts a request, and nothing happens on ENC, runs the decoded operation (R18, R51). Of the
offset port the word holds what its wires carry (DESIGN CHOICE, log 8). -/
def Obligations.StepRunsDecoderRequest : Prop :=
  ∀ (s : State) (p : PortInputs) (i : Instr), currentCycle s = .driven p →
    p.decInValid = true → decInReady s p = true →
    decode s.cfg .dec (packDecReq (p.decInOff % 2 ^ s.cfg.offsetW) p.decInCnt p.decInChars) = .ok i →
    p.encInValid = false → (s.encRspValid = false ∨ p.encRspReady = false) →
    step s = exec i { s with pins := s.pins.tail, cycle := s.cycle + 1 }

/-- A cycle in which both units accept a request runs both operations; in which order they are put together does not
matter (R10, R18). -/
def Obligations.StepRunsBothRequests : Prop :=
  ∀ (s : State) (p : PortInputs) (i j : Instr), currentCycle s = .driven p →
    p.encInValid = true → encInReady s p = true → p.decInValid = true → decInReady s p = true →
    decode s.cfg .enc (packEncReq p.encInCnt p.encInData).toNat = .ok i →
    decode s.cfg .dec (packDecReq (p.decInOff % 2 ^ s.cfg.offsetW) p.decInCnt p.decInChars) = .ok j →
    ∃ t u v, exec i { s with pins := s.pins.tail, cycle := s.cycle + 1 } = .next t ∧
      exec j { s with pins := s.pins.tail, cycle := s.cycle + 1 } = .next u ∧
      step s = .next v ∧ exec j t = .next v ∧ exec i u = .next v

/-- The next step after `withFetchWord` runs exactly the request of that word, from any state (the model's way to place
a request, log 4). -/
def Obligations.PresentedWordRunsNext : Prop :=
  ∀ (s : State) (nbits w : Nat) (i : Instr), decode s.cfg (channelOfWidth nbits) w = .ok i →
    step (s.withFetchWord nbits w) = exec i { s with cycle := s.cycle + 1 }

/-- R16: the request payload is sampled only at a request transfer; without one, its value has no effect. -/
def Obligations.PayloadMattersOnlyAtTransfer : Prop :=
  ∀ (s : State) (p : PortInputs) (rest : List HostCycle) (cnt : BitVec 2),
    (encRequest s p = none → ∀ data : BitVec 16,
      step { s with pins := .driven { p with encInCnt := cnt, encInData := data } :: rest } =
        step { s with pins := .driven p :: rest }) ∧
    (decRequest s p = none → ∀ (chars : BitVec 24) (off : Nat),
      step { s with pins := .driven { p with decInCnt := cnt, decInChars := chars, decInOff := off } :: rest } =
        step { s with pins := .driven p :: rest })

/-- R94 (an inference the spec marks as derived): while a response is valid and the host is not ready for it, every
response output of the unit holds its value over the cycle (a reset edge apart, R89). -/
def Obligations.StalledResponseIsStable : Prop :=
  ∀ (s : State) (p : PortInputs), currentCycle s = .driven p → p.rst = false → ∃ t, step s = .next t ∧
    (s.encRspValid = true → p.encRspReady = false → t.encRspValid = true ∧ t.encRsp = s.encRsp) ∧
    (s.decRspValid = true → p.decRspReady = false → t.decRspValid = true ∧ t.decRsp = s.decRsp)

/-- R92, R97: a host that keeps `*_rsp_ready` = 1 has every request it offers accepted, and its response is held, valid,
in the next cycle; one that does not is stalled after one request. -/
def Obligations.OneCycleLatencyBackToBack : Prop :=
  ∀ (s : State) (p : PortInputs), currentCycle s = .driven p → p.rst = false → ∃ t, step s = .next t ∧
    (p.encInValid = true → p.encRspReady = true → encRequest s p = some ⟨p.encInCnt, p.encInData⟩ ∧
      encSample t = some (refEncode p.encInCnt p.encInData)) ∧
    (p.decInValid = true → p.decRspReady = true →
      decRequest s p = some ⟨p.decInCnt, p.decInChars, p.decInOff % 2 ^ s.cfg.offsetW⟩ ∧
      decSample t = some (refDecode s.cfg.offsetW p.decInCnt p.decInChars (p.decInOff % 2 ^ s.cfg.offsetW))) ∧
    (s.encRspValid = true → p.encRspReady = false → encRequest s p = none) ∧
    (s.decRspValid = true → p.decRspReady = false → decRequest s p = none)

/-- R95: a cycle whose host drives one of the four ports combinationally from the same unit's `*_in_ready` is refused. (How
State holds such a host is log 5.) -/
def Obligations.CombinationalLoopIsRefused : Prop :=
  ∀ (s : State) (port : LoopPort) (rest : List HostCycle), s.pins = .loop port :: rest →
    step s = .refused (.combinationalLoop port)

/-- Derived from R78, R95: nothing else stops the machine; no request and no data does. -/
def Obligations.OnlyCombinationalLoopsStop : Prop :=
  ∀ s : State, (∃ t, step s = .next t) ∨ ∃ port rest, s.pins = .loop port :: rest

/-- R35 (an inference the spec marks as derived): over any run without a reset edge, the responses a unit has had taken,
and then the one it holds at the end, are the one it held at the start and then its function's value on each request it
accepted, in order. -/
def Obligations.ResponsesFollowRequestOrder : Prop :=
  ∀ (n : Nat) (s t : State) (es : List CycleEvents), trace n s = some (es, t) → (∀ e ∈ es, e.rst = false) →
    heldEnc s ++ (es.filterMap (·.encRequest)).map (fun r => refEncode r.cnt r.data) =
      es.filterMap (·.encResponse) ++ heldEnc t ∧
    heldDec s ++ (es.filterMap (·.decRequest)).map (fun r => refDecode s.cfg.offsetW r.cnt r.chars r.off) =
      es.filterMap (·.decResponse) ++ heldDec t

/-- R10: a transfer on one unit has no effect on the other. Two states that agree on one unit's registers, under inputs
that agree on `rst` and on that unit's ports, agree on that unit's registers after the edge, whatever the other unit
does. -/
def Obligations.UnitsAreIndependent : Prop :=
  ∀ (s s' : State) (p q : PortInputs), currentCycle s = .driven p → currentCycle s' = .driven q → p.rst = q.rst →
    ∃ t t', step s = .next t ∧ step s' = .next t' ∧
      (s.encRspValid = s'.encRspValid → s.encRsp = s'.encRsp → p.encInValid = q.encInValid →
        p.encInCnt = q.encInCnt → p.encInData = q.encInData → p.encRspReady = q.encRspReady →
        t.encRspValid = t'.encRspValid ∧ t.encRsp = t'.encRsp) ∧
      (s.cfg = s'.cfg → s.decRspValid = s'.decRspValid → s.decRsp = s'.decRsp → p.decInValid = q.decInValid →
        p.decInCnt = q.decInCnt → p.decInChars = q.decInChars → p.decInOff = q.decInOff →
        p.decRspReady = q.decRspReady → t.decRspValid = t'.decRspValid ∧ t.decRsp = t'.decRsp)

/-- R79: the response to a request is computed from that request alone, whatever the unit answered before. -/
def Obligations.NoStickyError : Prop :=
  ∀ (i : Instr) (s s' : State), s.cfg = s'.cfg → ∃ t t', exec i s = .next t ∧ exec i s' = .next t' ∧
    (i.channel = .enc → t.encRspValid = true ∧ t'.encRspValid = true ∧ t.encRsp = t'.encRsp) ∧
    (i.channel = .dec → t.decRspValid = true ∧ t'.decRspValid = true ∧ t.decRsp = t'.decRsp)

/-! ## The tables -/

/-- R26, with the codes of R25 (ASCII, D7): the 45 entries of ENC_LUT in order. -/
def Obligations.EncodeTableIsTheAlphabet : Prop :=
  (List.finRange 45).map encLut =
    ['0', '1', '2', '3', '4', '5', '6', '7', '8', '9', 'A', 'B', 'C', 'D', 'E', 'F', 'G', 'H', 'I', 'J', 'K', 'L', 'M',
     'N', 'O', 'P', 'Q', 'R', 'S', 'T', 'U', 'V', 'W', 'X', 'Y', 'Z', ' ', '$', '%', '*', '+', '-', '.', '/', ':'].map
      (fun c => BitVec.ofNat 8 c.toNat)

/-- R28 (an inference the spec marks as derived): the two tables are inverse to each other. -/
def Obligations.TablesAreInverse : Prop :=
  (∀ i : Digit, decLut (encLut i) = some i) ∧ (∀ (b : Byte) (d : Digit), decLut b = some d → encLut d = b)

/-- R27: the table in full, rows 2_ to 5_ entry by entry and every other row INVALID; so exactly 45 of the 256 entries are
valid, the alphabet's, each with its digit, and lowercase letters, CR, LF, NUL and every byte 0x80 and above are not. -/
def Obligations.DecodeTableValidEntries : Prop :=
  ((List.range 16).map (fun lo => decLut (BitVec.ofNat 8 (0x20 + lo))) =
    [some 36, none, none, none, some 37, some 38, none, none, none, none, some 39, some 40, none, some 41, some 42,
     some 43]) ∧
  ((List.range 16).map (fun lo => decLut (BitVec.ofNat 8 (0x30 + lo))) =
    [some 0, some 1, some 2, some 3, some 4, some 5, some 6, some 7, some 8, some 9, some 44, none, none, none, none,
     none]) ∧
  ((List.range 16).map (fun lo => decLut (BitVec.ofNat 8 (0x40 + lo))) =
    [none, some 10, some 11, some 12, some 13, some 14, some 15, some 16, some 17, some 18, some 19, some 20, some 21,
     some 22, some 23, some 24]) ∧
  ((List.range 16).map (fun lo => decLut (BitVec.ofNat 8 (0x50 + lo))) =
    [some 25, some 26, some 27, some 28, some 29, some 30, some 31, some 32, some 33, some 34, some 35, none, none, none,
     none, none]) ∧
  (∀ b : Byte, b.toNat < 0x20 ∨ 0x60 ≤ b.toNat → decLut b = none) ∧
  ((List.range 256).countP fun b => (decLut (BitVec.ofNat 8 b)).isSome) = 45 ∧
  ((List.range 256).countP fun b => (decLut (BitVec.ofNat 8 b)).isNone) = 211 ∧
  ∀ i : Digit, decLut (encLut i) = some i

/-! ## The encoder's operations -/

/-- R61: ENC0 completes in every state with status OK and no characters, and changes nothing but ENC's registers. -/
def Obligations.Enc0AnswersEmpty : Prop :=
  ∀ (b0 b1 : Byte) (s : State), encode (.enc0 b0 b1) &&& 0x30000 = 0x00000 ∧
    exec (.enc0 b0 b1) s = .next { s with encRspValid := true, encRsp := ⟨0, 0, 0⟩ }

/-- R62: ENC3 completes in every state with status ILLEGAL and no characters, and changes nothing but ENC's registers.
-/
def Obligations.Enc3AnswersIllegal : Prop :=
  ∀ (b0 b1 : Byte) (s : State), encode (.enc3 b0 b1) &&& 0x30000 = 0x30000 ∧
    exec (.enc3 b0 b1) s = .next { s with encRspValid := true, encRsp := ⟨1, 0, 0⟩ }

/-- R60: ENC1 completes in every state with the two characters of `v = b0`, lane 2 zero, and changes nothing but ENC's
registers. -/
def Obligations.Enc1EncodesShortBlock : Prop :=
  ∀ (b0 b1 : Byte) (s : State), encode (.enc1 b0 b1) &&& 0x30000 = 0x10000 ∧
    ∃ d0 d1 : Digit, d0.val = b0.toNat % 45 ∧ d1.val = b0.toNat / 45 ∧
    exec (.enc1 b0 b1) s =
      .next { s with encRspValid := true, encRsp := ⟨0, 2, lanes3 (encLut d0) (encLut d1) 0x00⟩ }

/-- R59: ENC2 completes in every state with the three characters of `v = b0*256 + b1`, and changes nothing but ENC's
registers. -/
def Obligations.Enc2EncodesFullBlock : Prop :=
  ∀ (b0 b1 : Byte) (s : State), encode (.enc2 b0 b1) &&& 0x30000 = 0x20000 ∧ ∃ d0 d1 d2 : Digit,
    d0.val = (b0.toNat * 256 + b1.toNat) % 45 ∧ d1.val = (b0.toNat * 256 + b1.toNat) / 45 % 45 ∧
    d2.val = (b0.toNat * 256 + b1.toNat) / 2025 ∧
    exec (.enc2 b0 b1) s =
      .next { s with encRspValid := true, encRsp := ⟨0, 3, lanes3 (encLut d0) (encLut d1) (encLut d2)⟩ }

/-- R63 (derived by the spec from R58 and R26): the digits of an encoder operation carry its value exactly, and their
bounds. -/
def Obligations.EncoderDigitsCarryTheValue : Prop :=
  (∀ b0 b1 : Byte, fullBytesValue b0 b1 ≤ 65535 ∧
    fullDigitsValue (digit0 (fullBytesValue b0 b1)) (digit1 (fullBytesValue b0 b1)) (fullDigit2 b0 b1) =
      b0.toNat * 256 + b1.toNat ∧ (fullDigit2 b0 b1).val ≤ 32) ∧
  (∀ b0 : Byte, shortDigitsValue (digit0 (shortBytesValue b0)) (shortDigit1 b0) = b0.toNat ∧ (shortDigit1 b0).val ≤ 5)

/-- R80: ILLEGAL is returned only for the reserved request ENC3, OK for the three others. -/
def Obligations.IllegalOnlyForEnc3 : Prop :=
  ∀ (i : Instr) (s : State), i.channel = .enc → ∃ t, exec i s = .next t ∧
    (t.encRsp.status = 1 ↔ ∃ b0 b1, i = .enc3 b0 b1) ∧ (t.encRsp.status = 0 ↔ ¬ ∃ b0 b1, i = .enc3 b0 b1)

/-- The frame of the four encoder operations (R18, R19): ENC's valid bit and payload, and nothing else. -/
def Obligations.EncoderOperationsTouchOnlyEncoder : Prop :=
  ∀ (i : Instr) (s : State), i.channel = .enc →
    ∃ t, exec i s = .next t ∧ t = { s with encRspValid := true, encRsp := t.encRsp }

/-- R58: the operation that a sampled encoder request names writes ENCODE of the sampled payload. -/
def Obligations.EncoderComputesENCODE : Prop :=
  ∀ (cnt : BitVec 2) (data : BitVec 16) (s : State),
    exec (decodeEncReq (packEncReq cnt data)) s =
      .next { s with encRspValid := true, encRsp := refEncode cnt data }

/-! ## The decoder's operations -/

/-- R67: DEC0 completes in every state with status END and nothing consumed, and changes nothing but DEC's registers. -/
def Obligations.Dec0AnswersEnd : Prop :=
  ∀ (ch0 ch1 ch2 : Byte) (off : Nat) (s : State),
    encode (.dec0 ch0 ch1 ch2 off) &&& 0x3000000 = 0x0000000 ∧
    exec (.dec0 ch0 ch1 ch2 off) s = .next { s with decRspValid := true, decRsp := ⟨1, 0, 0, 0x0000, 0⟩ }

/-- R68: DEC1 completes in every state with ERR_LONE at `off`, whatever the character, and changes nothing but DEC's
registers. -/
def Obligations.Dec1AnswersLone : Prop :=
  ∀ (ch0 ch1 ch2 : Byte) (off : Nat) (s : State),
    encode (.dec1 ch0 ch1 ch2 off) &&& 0x3000000 = 0x1000000 ∧
    exec (.dec1 ch0 ch1 ch2 off) s =
      .next { s with decRspValid := true, decRsp := ⟨4, 0, 0, 0x0000, off % 2 ^ s.cfg.offsetW⟩ }

/-- R69: DEC2 completes in every state, changes nothing but DEC's registers, and answers the first invalid character of
the two, or else one byte, the value modulo 256, with no range check. -/
def Obligations.Dec2DecodesShortBlock : Prop :=
  ∀ (ch0 ch1 ch2 : Byte) (off : Nat) (s : State), encode (.dec2 ch0 ch1 ch2 off) &&& 0x3000000 = 0x2000000 ∧ ∃ r : DecRsp,
    exec (.dec2 ch0 ch1 ch2 off) s = .next { s with decRspValid := true, decRsp := r } ∧
    (decLut ch0 = none → r = ⟨2, 0, 0, 0x0000, off % 2 ^ s.cfg.offsetW⟩) ∧
    (∀ c0, decLut ch0 = some c0 → decLut ch1 = none → r = ⟨2, 0, 0, 0x0000, (off + 1) % 2 ^ s.cfg.offsetW⟩) ∧
    (∀ c0 c1, decLut ch0 = some c0 → decLut ch1 = some c1 →
      r = ⟨0, 1, 2, BitVec.ofNat 16 ((c0.val + 45 * c1.val) % 256), 0⟩)

/-- R70: DEC3 completes in every state, changes nothing but DEC's registers, and answers the first invalid character of
the three, or else the value's two bytes, with ERR_OVERFLOW above 65535. (`byte0` under ERR_OVERFLOW is the truncation
that R65, R70 and R71 give, the spec's decision D13.) -/
def Obligations.Dec3DecodesFullBlock : Prop :=
  ∀ (ch0 ch1 ch2 : Byte) (off : Nat) (s : State), encode (.dec3 ch0 ch1 ch2 off) &&& 0x3000000 = 0x3000000 ∧ ∃ r : DecRsp,
    exec (.dec3 ch0 ch1 ch2 off) s = .next { s with decRspValid := true, decRsp := r } ∧
    (decLut ch0 = none → r = ⟨2, 0, 0, 0x0000, off % 2 ^ s.cfg.offsetW⟩) ∧
    (∀ c0, decLut ch0 = some c0 → decLut ch1 = none → r = ⟨2, 0, 0, 0x0000, (off + 1) % 2 ^ s.cfg.offsetW⟩) ∧
    (∀ c0 c1, decLut ch0 = some c0 → decLut ch1 = some c1 → decLut ch2 = none →
      r = ⟨2, 0, 0, 0x0000, (off + 2) % 2 ^ s.cfg.offsetW⟩) ∧
    (∀ c0 c1 c2 v, decLut ch0 = some c0 → decLut ch1 = some c1 → decLut ch2 = some c2 →
      v = c0.val + 45 * c1.val + 2025 * c2.val →
      (65535 < v → r = ⟨3, 2, 3, BitVec.ofNat 16 (v % 256 * 256 + v / 256 % 256), (off + 3) % 2 ^ s.cfg.offsetW⟩) ∧
      (v ≤ 65535 → r = ⟨0, 2, 3, BitVec.ofNat 16 (v % 256 * 256 + v / 256), 0⟩))

/-- R66 (an inference the spec marks as derived): the ranges of the decoder's values, and that truncation changes
`byte0` only above 65535. -/
def Obligations.DecoderValueRanges : Prop :=
  (∀ c0 c1 c2 : Digit, fullDigitsValue c0 c1 c2 ≤ 91124 ∧
    (overflows (fullDigitsValue c0 c1 c2) = true ↔ 65535 < fullDigitsValue c0 c1 c2) ∧
    (overflows (fullDigitsValue c0 c1 c2) = false →
      (truncByte (fullDigitsValue c0 c1 c2 / 256)).toNat = fullDigitsValue c0 c1 c2 / 256)) ∧
  (∀ c0 c1 : Digit, shortDigitsValue c0 c1 ≤ 2024)

/-- R75: which offset each status records, for every decoder request, and that there is no status but these five. -/
def Obligations.ErrorOffsetPerCause : Prop :=
  ∀ (cnt : BitVec 2) (chars : BitVec 24) (off : Nat) (s : State), ∃ t,
    exec (decodeDecReq off (packDecReqLow cnt chars)) s = .next t ∧
    (t.decRsp.status = 2 → ∃ k < cnt.toNat, decLut (lane k chars) = none ∧
      (∀ j < k, decLut (lane j chars) ≠ none) ∧ t.decRsp.erroff = (off + k) % 2 ^ s.cfg.offsetW) ∧
    (t.decRsp.status = 3 → t.decRsp.erroff = (off + 3) % 2 ^ s.cfg.offsetW) ∧
    (t.decRsp.status = 4 → t.decRsp.erroff = off % 2 ^ s.cfg.offsetW) ∧
    (t.decRsp.status = 0 ∨ t.decRsp.status = 1 → t.decRsp.erroff = 0) ∧ t.decRsp.status.toNat ≤ 4

/-- R76: which one status a decoder request gets, in the order of the causes. -/
def Obligations.StatusPriority : Prop :=
  ∀ (cnt : BitVec 2) (chars : BitVec 24) (off : Nat) (s : State), ∃ t,
    exec (decodeDecReq off (packDecReqLow cnt chars)) s = .next t ∧
    (cnt = 0 → t.decRsp.status = 1) ∧
    (cnt = 1 → t.decRsp.status = 4 ∧ t.decRsp.erroff = off % 2 ^ s.cfg.offsetW) ∧
    (2 ≤ cnt.toNat → ∀ k < cnt.toNat, decLut (lane k chars) = none → (∀ j < k, decLut (lane j chars) ≠ none) →
      t.decRsp.status = 2 ∧ t.decRsp.erroff = (off + k) % 2 ^ s.cfg.offsetW) ∧
    (2 ≤ cnt.toNat → (∀ k < cnt.toNat, decLut (lane k chars) ≠ none) →
      (t.decRsp.status = 3 ↔ cnt = 3 ∧ ∃ c0 c1 c2, decLut (lane 0 chars) = some c0 ∧ decLut (lane 1 chars) = some c1 ∧
        decLut (lane 2 chars) = some c2 ∧ 65535 < c0.val + 45 * c1.val + 2025 * c2.val) ∧
      (t.decRsp.status ≠ 3 → t.decRsp.status = 0))

/-- R77: what is emitted and consumed under each error, for every decoder request. Under ERR_OVERFLOW the data is what R71
says: `byte0 = trunc_8(v / 256)` in the low lane and `byte1 = v % 256` in the high one. -/
def Obligations.OutputUnderError : Prop :=
  ∀ (i : Instr) (s : State), i.channel = .dec → ∃ t, exec i s = .next t ∧
    (t.decRsp.status = 2 ∨ t.decRsp.status = 4 →
      t.decRsp.nbytes = 0 ∧ t.decRsp.data = 0x0000 ∧ t.decRsp.consumed = 0) ∧
    (t.decRsp.status = 3 → t.decRsp.nbytes = 2 ∧ t.decRsp.consumed = 3 ∧
      ∃ ch0 ch1 ch2 off c0 c1 c2 v, i = .dec3 ch0 ch1 ch2 off ∧ decLut ch0 = some c0 ∧ decLut ch1 = some c1 ∧
        decLut ch2 = some c2 ∧ v = c0.val + 45 * c1.val + 2025 * c2.val ∧ 65535 < v ∧
        (lane 0 t.decRsp.data).toNat = v / 256 % 256 ∧ (lane 1 t.decRsp.data).toNat = v % 256)

/-- The frame of the four decoder operations (R18, R19): DEC's valid bit and payload, and nothing else. -/
def Obligations.DecoderOperationsTouchOnlyDecoder : Prop :=
  ∀ (i : Instr) (s : State), i.channel = .dec →
    ∃ t, exec i s = .next t ∧ t = { s with decRspValid := true, decRsp := t.decRsp }

/-- R65: the operation that a sampled decoder request names writes DECODE of the sampled payload. -/
def Obligations.DecoderComputesDECODE : Prop :=
  ∀ (cnt : BitVec 2) (chars : BitVec 24) (off : Nat) (s : State),
    exec (decodeDecReq off (packDecReqLow cnt chars)) s =
      .next { s with decRspValid := true, decRsp := refDecode s.cfg.offsetW cnt chars off }

/-- R53: an ignored lane has no effect, whatever its value. -/
def Obligations.IgnoredLanesHaveNoEffect : Prop :=
  ∀ (s : State) (x y z x' y' z' : Byte) (off : Nat),
    exec (.enc0 x y) s = exec (.enc0 x' y') s ∧ exec (.enc1 x y) s = exec (.enc1 x y') s ∧
    exec (.enc3 x y) s = exec (.enc3 x' y') s ∧
    exec (.dec0 x y z off) s = exec (.dec0 x' y' z' off) s ∧ exec (.dec1 x y z off) s = exec (.dec1 x' y' z' off) s ∧
    exec (.dec2 x y z off) s = exec (.dec2 x y z' off) s

/-- R64 (an inference the spec marks as derived): every result of ENC2 or ENC1 decodes back to its bytes, in any state
and at any offset. -/
def Obligations.EncoderResultsDecodeBack : Prop :=
  (∀ (b0 b1 : Byte) (off : Nat) (s : State), ∃ t u, exec (.enc2 b0 b1) s = .next t ∧
    exec (.dec3 (lane 0 t.encRsp.chars) (lane 1 t.encRsp.chars) (lane 2 t.encRsp.chars) off) t = .next u ∧
    u.decRsp = ⟨0, 2, 3, lanes2 b0 b1, 0⟩) ∧
  (∀ (b0 b1 ch2 : Byte) (off : Nat) (s : State), ∃ t u, exec (.enc1 b0 b1) s = .next t ∧
    exec (.dec2 (lane 0 t.encRsp.chars) (lane 1 t.encRsp.chars) ch2 off) t = .next u ∧
    u.decRsp = ⟨0, 1, 2, lanes2 b0 0x00, 0⟩)

/-! ## Encodings -/

/-- Decoding the word of a well-formed request gives the request back, for every operand (R46, R48, R50, R51). -/
def Obligations.DecodeOfEncodeIsIdentity : Prop :=
  ∀ (c : Config) (i : Instr), i.wf c = true → decode c i.channel (encode i) = .ok i

/-- Every word that a channel accepts is the word of the well-formed request it decodes to: no bit is dropped. -/
def Obligations.EncodeOfDecodeIsIdentity : Prop :=
  ∀ (c : Config) (ch : Channel) (w : Nat) (i : Instr), decode c ch w = .ok i →
    encode i = w ∧ i.channel = ch ∧ i.wf c = true

/-- R50, R51: every word of a channel's width is a request, and it is an instance of exactly one row of the opcode map,
the row of that request. -/
def Obligations.EveryWordSelectsOneRow : Prop :=
  ∀ (c : Config) (ch : Channel) (w : Nat),
    w < (match ch with | .enc => 2 ^ 18 | .dec => 2 ^ (26 + c.offsetW)) →
    ∃ i, decode c ch w = .ok i ∧ (opcodeTable.filter (·.matches ch w)).map (·.mnemonic) = [i.mnemonic]

/-- A word wider than its channel is rejected by name (R46, R48). -/
def Obligations.TooWideWordsAreRejected : Prop :=
  (∀ (c : Config) (w : Nat), 2 ^ 18 ≤ w → decode c .enc w = .error .encReqTooWide) ∧
  (∀ (c : Config) (w : Nat), 2 ^ (26 + c.offsetW) ≤ w → decode c .dec w = .error .decReqTooWide)

/-- Words written out from R46, R48, R50, R51: the vectors E1, E12, D15's block at offset 100 and DEC0 at offset 11. The
offset width is the one R5 suggests (DESIGN CHOICE, log 1). -/
def Obligations.KnownWordsDecode : Prop :=
  decode Config.suggested .enc 0x24241 = .ok (.enc2 0x41 0x42) ∧
  decode Config.suggested .enc 0x10035 = .ok (.enc1 0x35 0x00) ∧
  decode Config.suggested .dec (100 * 2 ^ 26 + 0x3576146) = .ok (.dec3 0x46 0x61 0x57 100) ∧
  decode Config.suggested .dec 0x2C000000 = .ok (.dec0 0x00 0x00 0x00 11)

/-- R47, R49: the packed response words, field by field, and that each word gives its response back. -/
def Obligations.ResponseWordsKeepEveryField : Prop :=
  (∀ r : EncRsp, r.word.toNat = r.status.toNat * 2 ^ 26 + r.cnt.toNat * 2 ^ 24 + r.chars.toNat ∧
    EncRsp.ofWord r.word = r) ∧
  (∀ r : DecRsp, r.word = r.erroff * 2 ^ 23 + r.status.toNat * 2 ^ 20 + r.nbytes.toNat * 2 ^ 18 +
    r.consumed.toNat * 2 ^ 16 + r.data.toNat ∧ DecRsp.ofWord r.word = r)

/-! ## Invariants -/

/-- The invariant of Safety.lean is kept by every step (R21, R74, R75, R77). -/
def Obligations.StepKeepsInvariant : Prop := ∀ s t : State, Inv s → step s = .next t → Inv t

/-- The invariant holds right after reset, where no response is held (R87). -/
def Obligations.ResetSatisfiesInvariant : Prop :=
  Inv State.reset ∧ State.reset.encRspValid = false ∧ State.reset.decRspValid = false

/-- R21: "Once the unit has produced its first response, every payload register holds a legal value": a request makes
its unit's payload one the unit can give, and no step takes that away, with or without the valid bit. -/
def Obligations.PayloadStaysLegal : Prop :=
  ∀ (s t : State) (p : PortInputs), currentCycle s = .driven p → step s = .next t →
    (encLegal s.encRsp = true ∨ encRequest s p ≠ none → encLegal t.encRsp = true) ∧
    (decLegal s.decRsp = true ∨ decRequest s p ≠ none → decLegal t.decRsp = true)

/-- R24: no step changes the build parameter. -/
def Obligations.StepKeepsBuildParameter : Prop := ∀ s t : State, step s = .next t → t.cfg = s.cfg

/-- R73, R74: a response that DEC holds under the invariant has one of the five status codes, and reports a
CorruptInputError exactly when the code is none of OK and END. -/
def Obligations.HeldStatusIsOneOfFive : Prop :=
  ∀ s : State, Inv s → s.decRspValid = true → s.decRsp.status.toNat ≤ 4 ∧
    (isCorruptInput s.decRsp.status = true ↔ s.decRsp.status ≠ DecStatus.ok.code ∧ s.decRsp.status ≠ DecStatus.cleanEnd.code)

/-! ## The host contract

The host is the one of HostContract.lean: each request and its response are one atomic event, and the final DEC0 is issued
(DESIGN CHOICE, log 14; R97 allows the first and R40 the second). -/

/-- R38, R39: a whole-buffer encode gives exactly `encoded_length` characters, from any state (the host of log 14, DESIGN
CHOICE). -/
def Obligations.WholeBufferEncodeLength : Prop :=
  ∀ (s : State) (src : List Byte), ∃ e, hostEncode s src = some e ∧
    e.length = src.length / 2 * 3 + (if src.length % 2 = 1 then 2 else 0)

/-- R44: a decode of an encode gives the bytes back with no error, for every byte sequence and whatever is driven on the
unused lanes of each decoder request (`pad`, any value for each request and lane). The host is that of log 14, DESIGN
CHOICE. -/
def Obligations.WholeBufferRoundTrip : Prop :=
  ∀ (pad : Nat → Nat → Byte) (s s' : State) (src : List Byte), ∃ e, hostEncode s src = some e ∧
    hostDecode pad s' e = some ⟨src, none⟩ ∧ e.length = encodedLength src.length ∧
    src.length ≤ decodedLengthUpperBound e.length

/-- R42: the decode of any characters ends, with at most `decoded_length_upper_bound` bytes; without an error the bound
is exact, and a length that is 1 modulo 3 always ends in an error, without the last byte the bound allows. The host is that
of log 14, DESIGN CHOICE. -/
def Obligations.WholeBufferDecodeBound : Prop :=
  ∀ (pad : Nat → Nat → Byte) (s : State) (src : List Byte), ∃ d, hostDecode pad s src = some d ∧
    d.bytes.length ≤ src.length / 3 * 2 + (if src.length % 3 ≠ 0 then 1 else 0) ∧
    (d.error = none → src.length % 3 ≠ 1 ∧ d.bytes.length = decodedLengthUpperBound src.length) ∧
    (src.length % 3 = 1 → d.error ≠ none ∧ d.bytes.length ≤ src.length / 3 * 2)

/-- R41: a decode stops at the first block, full, short or lone, whose response is corrupt. It returns the bytes before that
block, then what the response emits (the two bytes of an overflowing block counted), and the error at its offset; the rest
of the text has no part in it beyond what R40's request of that block carries. (The blocks before it are full blocks that
decode, which are the encodings of their bytes.) The host is that of log 14, DESIGN CHOICE. -/
def Obligations.WholeBufferStopsAtFirstError : Prop :=
  ∀ (pad : Nat → Nat → Byte) (s t : State) (src pre tail : List Byte), src.length % 2 = 0 → hostEncode s src = some pre →
    exec (decsRequest s.cfg.offsetW pad (pre ++ tail) pre.length).instr s = .next t →
    isCorruptInput t.decRsp.status = true →
    hostDecode pad s (pre ++ tail) = some ⟨src ++ t.decRsp.byteList, some (t.decRsp.status, t.decRsp.erroff)⟩

/-- R41, R68, R69: the two final forms. After full blocks that decode, a lone character gives ERR_LONE at its offset, and a
short block with an invalid character gives ERR_INVALID at the first such character's offset; the bytes returned are those
of the full blocks. The host is that of log 14, DESIGN CHOICE. -/
def Obligations.WholeBufferErrorInFinalBlock : Prop :=
  ∀ (pad : Nat → Nat → Byte) (ch0 ch1 : Byte) (s : State) (src pre : List Byte), src.length % 2 = 0 →
    hostEncode s src = some pre →
    hostDecode pad s (pre ++ [ch0]) = some ⟨src, some (4, pre.length % 2 ^ s.cfg.offsetW)⟩ ∧
    (decLut ch0 = none → hostDecode pad s (pre ++ [ch0, ch1]) = some ⟨src, some (2, pre.length % 2 ^ s.cfg.offsetW)⟩) ∧
    (∀ c0, decLut ch0 = some c0 → decLut ch1 = none →
      hostDecode pad s (pre ++ [ch0, ch1]) = some ⟨src, some (2, (pre.length + 1) % 2 ^ s.cfg.offsetW)⟩)
end

