-- ==== Sys2Proof/Laws/Decode.lean ====
section
/-! SUPPORT. The lanes and fields of packed vectors as numbers, said once, and read back. -/

namespace Sys2Proof

/-- `{x, y}` as a number. -/
theorem toNat_append_eq {m n : Nat} (x : BitVec m) (y : BitVec n) : (x ++ y).toNat = x.toNat * 2 ^ n + y.toNat := by
  rw [BitVec.toNat_append, ← Nat.shiftLeft_add_eq_or_of_lt y.isLt, Nat.shiftLeft_eq]

theorem toNat_extract_eq {n : Nat} (start len : Nat) (v : BitVec n) :
    (v.extractLsb' start len).toNat = v.toNat / 2 ^ start % 2 ^ len := by
  simp [Nat.shiftRight_eq_div_pow]

theorem toNat_lane {n : Nat} (k : Nat) (v : BitVec n) : (lane k v).toNat = v.toNat / 2 ^ (8 * k) % 256 :=
  toNat_extract_eq (8 * k) 8 v

theorem toNat_lanes2 (x0 x1 : Byte) : (lanes2 x0 x1).toNat = x1.toNat * 256 + x0.toNat := toNat_append_eq x1 x0

theorem toNat_lanes3 (x0 x1 x2 : Byte) :
    (lanes3 x0 x1 x2).toNat = x2.toNat * 65536 + x1.toNat * 256 + x0.toNat := by
  have h := toNat_append_eq (x2 ++ x1) x0
  rw [toNat_append_eq x2 x1] at h
  refine h.trans ?_
  omega

theorem toNat_packEncReq (cnt : BitVec 2) (data : BitVec 16) :
    (packEncReq cnt data).toNat = cnt.toNat * 65536 + data.toNat := toNat_append_eq cnt data

theorem toNat_packDecReqLow (cnt : BitVec 2) (chars : BitVec 24) :
    (packDecReqLow cnt chars).toNat = cnt.toNat * 16777216 + chars.toNat := toNat_append_eq cnt chars

theorem lane_zero_lanes2 (x0 x1 : Byte) : lane 0 (lanes2 x0 x1) = x0 := by
  apply BitVec.eq_of_toNat_eq
  have h0 := x0.isLt
  rw [toNat_lane, toNat_lanes2]
  omega

theorem lane_one_lanes2 (x0 x1 : Byte) : lane 1 (lanes2 x0 x1) = x1 := by
  apply BitVec.eq_of_toNat_eq
  have h0 := x0.isLt
  have h1 := x1.isLt
  rw [toNat_lane, toNat_lanes2]
  omega

theorem lane_zero_lanes3 (x0 x1 x2 : Byte) : lane 0 (lanes3 x0 x1 x2) = x0 := by
  apply BitVec.eq_of_toNat_eq
  have h0 := x0.isLt
  rw [toNat_lane, toNat_lanes3]
  omega

theorem lane_one_lanes3 (x0 x1 x2 : Byte) : lane 1 (lanes3 x0 x1 x2) = x1 := by
  apply BitVec.eq_of_toNat_eq
  have h0 := x0.isLt
  have h1 := x1.isLt
  rw [toNat_lane, toNat_lanes3]
  omega

theorem lane_two_lanes3 (x0 x1 x2 : Byte) : lane 2 (lanes3 x0 x1 x2) = x2 := by
  apply BitVec.eq_of_toNat_eq
  have h0 := x0.isLt
  have h1 := x1.isLt
  have h2 := x2.isLt
  rw [toNat_lane, toNat_lanes3]
  omega

/-- The lanes of an ENC_REQ word are those of its data (R46). -/
theorem lane_packEncReq (k : Nat) (hk : k < 2) (cnt : BitVec 2) (data : BitVec 16) :
    lane k (packEncReq cnt data) = lane k data := by
  apply BitVec.eq_of_toNat_eq
  have hd := data.isLt
  rw [toNat_lane, toNat_lane, toNat_packEncReq]
  interval_cases k <;> omega

/-- The lanes of a DEC_REQ word are those of its characters (R48). -/
theorem lane_packDecReqLow (k : Nat) (hk : k < 3) (cnt : BitVec 2) (chars : BitVec 24) :
    lane k (packDecReqLow cnt chars) = lane k chars := by
  apply BitVec.eq_of_toNat_eq
  have hd := chars.isLt
  rw [toNat_lane, toNat_lane, toNat_packDecReqLow]
  interval_cases k <;> omega

/-- The operation field of an ENC_REQ word is its `cnt` (R50). -/
theorem cnt_packEncReq (cnt : BitVec 2) (data : BitVec 16) : (packEncReq cnt data).extractLsb' 16 2 = cnt := by
  apply BitVec.eq_of_toNat_eq
  have hc := cnt.isLt
  have hd := data.isLt
  rw [toNat_extract_eq, toNat_packEncReq]
  omega

/-- The operation field of a DEC_REQ word is its `cnt` (R51). -/
theorem cnt_packDecReqLow (cnt : BitVec 2) (chars : BitVec 24) :
    (packDecReqLow cnt chars).extractLsb' 24 2 = cnt := by
  apply BitVec.eq_of_toNat_eq
  have hc := cnt.isLt
  have hd := chars.isLt
  rw [toNat_extract_eq, toNat_packDecReqLow]
  omega

/-! The request that a channel's ports name, by its `cnt` (R50, R51). -/

theorem decodeEncReq_pack_0 (data : BitVec 16) :
    decodeEncReq (packEncReq 0 data) = .enc0 (lane 0 data) (lane 1 data) := by
  rw [decodeEncReq, cnt_packEncReq, lane_packEncReq 0 (by decide), lane_packEncReq 1 (by decide)]
  rfl

theorem decodeEncReq_pack_1 (data : BitVec 16) :
    decodeEncReq (packEncReq 1 data) = .enc1 (lane 0 data) (lane 1 data) := by
  rw [decodeEncReq, cnt_packEncReq, lane_packEncReq 0 (by decide), lane_packEncReq 1 (by decide)]
  rfl

theorem decodeEncReq_pack_2 (data : BitVec 16) :
    decodeEncReq (packEncReq 2 data) = .enc2 (lane 0 data) (lane 1 data) := by
  rw [decodeEncReq, cnt_packEncReq, lane_packEncReq 0 (by decide), lane_packEncReq 1 (by decide)]
  rfl

theorem decodeEncReq_pack_3 (data : BitVec 16) :
    decodeEncReq (packEncReq 3 data) = .enc3 (lane 0 data) (lane 1 data) := by
  rw [decodeEncReq, cnt_packEncReq, lane_packEncReq 0 (by decide), lane_packEncReq 1 (by decide)]
  rfl

theorem decodeDecReq_pack_0 (off : Nat) (chars : BitVec 24) :
    decodeDecReq off (packDecReqLow 0 chars) = .dec0 (lane 0 chars) (lane 1 chars) (lane 2 chars) off := by
  rw [decodeDecReq, cnt_packDecReqLow, lane_packDecReqLow 0 (by decide), lane_packDecReqLow 1 (by decide),
    lane_packDecReqLow 2 (by decide)]
  rfl

theorem decodeDecReq_pack_1 (off : Nat) (chars : BitVec 24) :
    decodeDecReq off (packDecReqLow 1 chars) = .dec1 (lane 0 chars) (lane 1 chars) (lane 2 chars) off := by
  rw [decodeDecReq, cnt_packDecReqLow, lane_packDecReqLow 0 (by decide), lane_packDecReqLow 1 (by decide),
    lane_packDecReqLow 2 (by decide)]
  rfl

theorem decodeDecReq_pack_2 (off : Nat) (chars : BitVec 24) :
    decodeDecReq off (packDecReqLow 2 chars) = .dec2 (lane 0 chars) (lane 1 chars) (lane 2 chars) off := by
  rw [decodeDecReq, cnt_packDecReqLow, lane_packDecReqLow 0 (by decide), lane_packDecReqLow 1 (by decide),
    lane_packDecReqLow 2 (by decide)]
  rfl

theorem decodeDecReq_pack_3 (off : Nat) (chars : BitVec 24) :
    decodeDecReq off (packDecReqLow 3 chars) = .dec3 (lane 0 chars) (lane 1 chars) (lane 2 chars) off := by
  rw [decodeDecReq, cnt_packDecReqLow, lane_packDecReqLow 0 (by decide), lane_packDecReqLow 1 (by decide),
    lane_packDecReqLow 2 (by decide)]
  rfl

end Sys2Proof
end

