-- ==== Sys2Proof/Laws/State.lean ====
section
/-! SUPPORT. What each update of the state leaves in each field: one lemma per field and update. -/

namespace Sys2Proof.Machine

@[simp] theorem loadEncRsp_cfg (r : EncRsp) (s : State) : (loadEncRsp r s).cfg = s.cfg := rfl
@[simp] theorem loadEncRsp_encRspValid (r : EncRsp) (s : State) : (loadEncRsp r s).encRspValid = true := rfl
@[simp] theorem loadEncRsp_encRsp (r : EncRsp) (s : State) : (loadEncRsp r s).encRsp = r := rfl
@[simp] theorem loadEncRsp_decRspValid (r : EncRsp) (s : State) : (loadEncRsp r s).decRspValid = s.decRspValid := rfl
@[simp] theorem loadEncRsp_decRsp (r : EncRsp) (s : State) : (loadEncRsp r s).decRsp = s.decRsp := rfl
@[simp] theorem loadEncRsp_pins (r : EncRsp) (s : State) : (loadEncRsp r s).pins = s.pins := rfl
@[simp] theorem loadEncRsp_cycle (r : EncRsp) (s : State) : (loadEncRsp r s).cycle = s.cycle := rfl

@[simp] theorem loadDecRsp_cfg (r : DecRsp) (s : State) : (loadDecRsp r s).cfg = s.cfg := rfl
@[simp] theorem loadDecRsp_encRspValid (r : DecRsp) (s : State) : (loadDecRsp r s).encRspValid = s.encRspValid := rfl
@[simp] theorem loadDecRsp_encRsp (r : DecRsp) (s : State) : (loadDecRsp r s).encRsp = s.encRsp := rfl
@[simp] theorem loadDecRsp_decRspValid (r : DecRsp) (s : State) : (loadDecRsp r s).decRspValid = true := rfl
@[simp] theorem loadDecRsp_decRsp (r : DecRsp) (s : State) : (loadDecRsp r s).decRsp = r := rfl
@[simp] theorem loadDecRsp_pins (r : DecRsp) (s : State) : (loadDecRsp r s).pins = s.pins := rfl
@[simp] theorem loadDecRsp_cycle (r : DecRsp) (s : State) : (loadDecRsp r s).cycle = s.cycle := rfl

@[simp] theorem dropEncRsp_cfg (s : State) : (dropEncRsp s).cfg = s.cfg := rfl
@[simp] theorem dropEncRsp_encRspValid (s : State) : (dropEncRsp s).encRspValid = false := rfl
@[simp] theorem dropEncRsp_encRsp (s : State) : (dropEncRsp s).encRsp = s.encRsp := rfl
@[simp] theorem dropEncRsp_decRspValid (s : State) : (dropEncRsp s).decRspValid = s.decRspValid := rfl
@[simp] theorem dropEncRsp_decRsp (s : State) : (dropEncRsp s).decRsp = s.decRsp := rfl
@[simp] theorem dropEncRsp_pins (s : State) : (dropEncRsp s).pins = s.pins := rfl
@[simp] theorem dropEncRsp_cycle (s : State) : (dropEncRsp s).cycle = s.cycle := rfl

@[simp] theorem dropDecRsp_cfg (s : State) : (dropDecRsp s).cfg = s.cfg := rfl
@[simp] theorem dropDecRsp_encRspValid (s : State) : (dropDecRsp s).encRspValid = s.encRspValid := rfl
@[simp] theorem dropDecRsp_encRsp (s : State) : (dropDecRsp s).encRsp = s.encRsp := rfl
@[simp] theorem dropDecRsp_decRspValid (s : State) : (dropDecRsp s).decRspValid = false := rfl
@[simp] theorem dropDecRsp_decRsp (s : State) : (dropDecRsp s).decRsp = s.decRsp := rfl
@[simp] theorem dropDecRsp_pins (s : State) : (dropDecRsp s).pins = s.pins := rfl
@[simp] theorem dropDecRsp_cycle (s : State) : (dropDecRsp s).cycle = s.cycle := rfl

@[simp] theorem resetEdge_cfg (s : State) : (resetEdge s).cfg = s.cfg := rfl
@[simp] theorem resetEdge_encRspValid (s : State) : (resetEdge s).encRspValid = false := rfl
@[simp] theorem resetEdge_encRsp (s : State) : (resetEdge s).encRsp = s.encRsp := rfl
@[simp] theorem resetEdge_decRspValid (s : State) : (resetEdge s).decRspValid = false := rfl
@[simp] theorem resetEdge_decRsp (s : State) : (resetEdge s).decRsp = s.decRsp := rfl
@[simp] theorem resetEdge_pins (s : State) : (resetEdge s).pins = s.pins := rfl
@[simp] theorem resetEdge_cycle (s : State) : (resetEdge s).cycle = s.cycle := rfl

@[simp] theorem nextCycle_cfg (s : State) : (nextCycle s).cfg = s.cfg := rfl
@[simp] theorem nextCycle_encRspValid (s : State) : (nextCycle s).encRspValid = s.encRspValid := rfl
@[simp] theorem nextCycle_encRsp (s : State) : (nextCycle s).encRsp = s.encRsp := rfl
@[simp] theorem nextCycle_decRspValid (s : State) : (nextCycle s).decRspValid = s.decRspValid := rfl
@[simp] theorem nextCycle_decRsp (s : State) : (nextCycle s).decRsp = s.decRsp := rfl
@[simp] theorem nextCycle_pins (s : State) : (nextCycle s).pins = s.pins.tail := rfl
@[simp] theorem nextCycle_cycle (s : State) : (nextCycle s).cycle = s.cycle + 1 := rfl

end Sys2Proof.Machine
end

