-- ==== Sys2Proof/Laws/Ops.lean ====
section
/-! SUPPORT. What a meaning can do, said once: an operation loads its own unit's response register and completes. -/

namespace Sys2Proof.Machine

open Sys2Proof

@[simp] theorem andThen_next (s : State) (k : State → Host.Outcome State Fault Refusal) : andThen (.next s) k = k s := rfl

@[simp] theorem andThen_fault (f : Fault) (k : State → Host.Outcome State Fault Refusal) :
    andThen (.fault f) k = .fault f := rfl

@[simp] theorem andThen_refused (r : Refusal) (k : State → Host.Outcome State Fault Refusal) :
    andThen (.refused r) k = .refused r := rfl

/-- The response ENC gives to a request of its channel; requests of the other channel have none. -/
def encAnswer : Instr → Option EncRsp
  | .enc0 _ _ => some (encResponse .ok 0 0)
  | .enc1 b0 _ => some (encShortResponse b0)
  | .enc2 b0 b1 => some (encFullResponse b0 b1)
  | .enc3 _ _ => some (encResponse .illegal 0 0)
  | .dec0 _ _ _ _ => none
  | .dec1 _ _ _ _ => none
  | .dec2 _ _ _ _ => none
  | .dec3 _ _ _ _ => none

/-- The response DEC gives to a request of its channel at an offset width. -/
def decAnswer (offsetW : Nat) : Instr → Option DecRsp
  | .enc0 _ _ => none
  | .enc1 _ _ => none
  | .enc2 _ _ => none
  | .enc3 _ _ => none
  | .dec0 _ _ _ _ => some (cleanResponse .cleanEnd 0 0 0)
  | .dec1 _ _ _ off => some (corruptResponse offsetW .errLone 0 0 0 off 0)
  | .dec2 ch0 ch1 _ off => some (decShortResponse offsetW ch0 ch1 off)
  | .dec3 ch0 ch1 ch2 off => some (decFullResponse offsetW ch0 ch1 ch2 off)

/-- The inversion lemma of `exec`: an encoder request loads its answer into ENC's register, a decoder request into DEC's. -/
theorem exec_cases (i : Instr) (s : State) :
    (∃ r, encAnswer i = some r ∧ i.channel = .enc ∧ exec i s = .next (loadEncRsp r s)) ∨
    (∃ r, decAnswer s.cfg.offsetW i = some r ∧ i.channel = .dec ∧ exec i s = .next (loadDecRsp r s)) := by
  cases i with
  | enc0 b0 b1 => exact .inl ⟨_, rfl, rfl, rfl⟩
  | enc1 b0 b1 => exact .inl ⟨_, rfl, rfl, rfl⟩
  | enc2 b0 b1 => exact .inl ⟨_, rfl, rfl, rfl⟩
  | enc3 b0 b1 => exact .inl ⟨_, rfl, rfl, rfl⟩
  | dec0 ch0 ch1 ch2 off => exact .inr ⟨_, rfl, rfl, rfl⟩
  | dec1 ch0 ch1 ch2 off => exact .inr ⟨_, rfl, rfl, rfl⟩
  | dec2 ch0 ch1 ch2 off => exact .inr ⟨_, rfl, rfl, rfl⟩
  | dec3 ch0 ch1 ch2 off => exact .inr ⟨_, rfl, rfl, rfl⟩

/-- What a short block can be answered: the lowest invalid lane, or the byte of its value. -/
theorem decShortResponse_cases (w : Nat) (ch0 ch1 : Byte) (off : Nat) :
    (decLut ch0 = none ∧ decShortResponse w ch0 ch1 off = invalidCharResponse w off 0) ∨
    (∃ c0, decLut ch0 = some c0 ∧ decLut ch1 = none ∧ decShortResponse w ch0 ch1 off = invalidCharResponse w off 1) ∨
    (∃ c0 c1, decLut ch0 = some c0 ∧ decLut ch1 = some c1 ∧
      decShortResponse w ch0 ch1 off = cleanResponse .ok 1 2 (lanes2 (truncByte (shortDigitsValue c0 c1)) 0)) := by
  unfold decShortResponse
  cases h0 : decLut ch0 with
  | none => exact .inl ⟨rfl, rfl⟩
  | some c0 =>
    cases h1 : decLut ch1 with
    | none => exact .inr (.inl ⟨c0, rfl, rfl, rfl⟩)
    | some c1 => exact .inr (.inr ⟨c0, c1, rfl, rfl, rfl⟩)

/-- What three valid digits give: both bytes, with ERR_OVERFLOW exactly above 65535. -/
theorem decFullBlock_cases (w : Nat) (c0 c1 c2 : Digit) (off : Nat) :
    (65535 < fullDigitsValue c0 c1 c2 ∧ decFullBlock w c0 c1 c2 off =
      corruptResponse w .errOverflow 2 3 (fullBlockBytes (fullDigitsValue c0 c1 c2)) off 3) ∨
    (fullDigitsValue c0 c1 c2 ≤ 65535 ∧ decFullBlock w c0 c1 c2 off =
      cleanResponse .ok 2 3 (fullBlockBytes (fullDigitsValue c0 c1 c2))) := by
  by_cases h : 65535 < fullDigitsValue c0 c1 c2
  · exact .inl ⟨h, by simp [decFullBlock, overflows, h, overflowDistance]⟩
  · exact .inr ⟨by omega, by simp [decFullBlock, overflows, h]⟩

/-- What a full block can be answered: the lowest invalid lane, or what its three digits give. -/
theorem decFullResponse_cases (w : Nat) (ch0 ch1 ch2 : Byte) (off : Nat) :
    (decLut ch0 = none ∧ decFullResponse w ch0 ch1 ch2 off = invalidCharResponse w off 0) ∨
    (∃ c0, decLut ch0 = some c0 ∧ decLut ch1 = none ∧
      decFullResponse w ch0 ch1 ch2 off = invalidCharResponse w off 1) ∨
    (∃ c0 c1, decLut ch0 = some c0 ∧ decLut ch1 = some c1 ∧ decLut ch2 = none ∧
      decFullResponse w ch0 ch1 ch2 off = invalidCharResponse w off 2) ∨
    (∃ c0 c1 c2, decLut ch0 = some c0 ∧ decLut ch1 = some c1 ∧ decLut ch2 = some c2 ∧
      decFullResponse w ch0 ch1 ch2 off = decFullBlock w c0 c1 c2 off) := by
  unfold decFullResponse
  cases h0 : decLut ch0 with
  | none => exact .inl ⟨rfl, rfl⟩
  | some c0 =>
    cases h1 : decLut ch1 with
    | none => exact .inr (.inl ⟨c0, rfl, rfl, rfl⟩)
    | some c1 =>
      cases h2 : decLut ch2 with
      | none => exact .inr (.inr (.inl ⟨c0, c1, rfl, rfl, rfl, rfl⟩))
      | some c2 => exact .inr (.inr (.inr ⟨c0, c1, c2, rfl, rfl, rfl, rfl⟩))

end Sys2Proof.Machine
end

