-- ==== Sys2Proof/Laws/PerInstr.lean ====
section
/-! SUPPORT. Claims about every instruction as syntax, one lemma per constructor. EncodeFits: the word of a well-formed request
is a word of its channel (30_encoding.md R46, R48). -/

namespace Sys2Proof.Laws.EncodeFits

open Sys2Proof

/-- The width in bits of a channel's request word (R46, R48). -/
def channelWidth (c : Config) : Channel → Nat
  | .enc => 18
  | .dec => 26 + c.offsetW

/-- The word of a well-formed request has no bit beyond its channel's width. -/
def Statement (i : Instr) : Prop := ∀ c : Config, i.wf c = true → encode i < 2 ^ channelWidth c i.channel

/-- A DEC_REQ word whose offset fits its wires fits the channel. -/
theorem packDecReq_fits (c : Config) (off : Nat) (cnt : BitVec 2) (chars : BitVec 24) (h : offsetFits c off = true) :
    packDecReq off cnt chars < 2 ^ (26 + c.offsetW) := by
  have hlow := (packDecReqLow cnt chars).isLt
  have hoff : off + 1 ≤ 2 ^ c.offsetW := by simpa [offsetFits] using h
  have hmul := Nat.mul_le_mul_right (2 ^ 26) hoff
  rw [packDecReq, pow_add, Nat.mul_comm (2 ^ 26)]
  omega

theorem enc0 (b0 b1 : Byte) : Statement (.enc0 b0 b1) := fun _ _ => (packEncReq 0 (lanes2 b0 b1)).isLt

theorem enc1 (b0 b1 : Byte) : Statement (.enc1 b0 b1) := fun _ _ => (packEncReq 1 (lanes2 b0 b1)).isLt

theorem enc2 (b0 b1 : Byte) : Statement (.enc2 b0 b1) := fun _ _ => (packEncReq 2 (lanes2 b0 b1)).isLt

theorem enc3 (b0 b1 : Byte) : Statement (.enc3 b0 b1) := fun _ _ => (packEncReq 3 (lanes2 b0 b1)).isLt

theorem dec0 (ch0 ch1 ch2 : Byte) (off : Nat) : Statement (.dec0 ch0 ch1 ch2 off) :=
  fun c h => packDecReq_fits c off 0 (lanes3 ch0 ch1 ch2) h

theorem dec1 (ch0 ch1 ch2 : Byte) (off : Nat) : Statement (.dec1 ch0 ch1 ch2 off) :=
  fun c h => packDecReq_fits c off 1 (lanes3 ch0 ch1 ch2) h

theorem dec2 (ch0 ch1 ch2 : Byte) (off : Nat) : Statement (.dec2 ch0 ch1 ch2 off) :=
  fun c h => packDecReq_fits c off 2 (lanes3 ch0 ch1 ch2) h

theorem dec3 (ch0 ch1 ch2 : Byte) (off : Nat) : Statement (.dec3 ch0 ch1 ch2 off) :=
  fun c h => packDecReq_fits c off 3 (lanes3 ch0 ch1 ch2) h

end Sys2Proof.Laws.EncodeFits
end

