-- ==== Sys2Proof/Laws/Step.lean ====
section
/-! SUPPORT. What one edge does, said once: each unit's own case of R18, and how a step is put together from them. -/

namespace Sys2Proof.Machine

open Sys2Proof

/-- A request transfer on ENC loads the answer to the sampled request. -/
theorem encEdge_request {s : State} {p : PortInputs} {r : EncReq} (h : encRequest s p = some r) :
    encEdge p s = exec r.instr s := by simp only [encEdge, h]

/-- Without a request transfer ENC at most drops a response that is taken. -/
theorem encEdge_no_request {s : State} {p : PortInputs} (h : encRequest s p = none) :
    encEdge p s = .next (if s.encRspValid && p.encRspReady then dropEncRsp s else s) := by simp only [encEdge, h]

theorem decEdge_request {s : State} {p : PortInputs} {r : DecReq} (h : decRequest s p = some r) :
    decEdge p s = exec r.instr s := by simp only [decEdge, h]

theorem decEdge_no_request {s : State} {p : PortInputs} (h : decRequest s p = none) :
    decEdge p s = .next (if s.decRspValid && p.decRspReady then dropDecRsp s else s) := by simp only [decEdge, h]

/-- Every word of the encoder's channel is an encoder operation. -/
theorem decodeEncReq_channel (w : BitVec 18) : (decodeEncReq w).channel = .enc := by
  unfold decodeEncReq
  split <;> rfl

/-- Every word of the decoder's channel is a decoder operation. -/
theorem decodeDecReq_channel (off : Nat) (w : BitVec 26) : (decodeDecReq off w).channel = .dec := by
  unfold decodeDecReq
  split <;> rfl

/-- The readiness of DEC and its request see only DEC's registers, so ENC's update does not change them. -/
theorem decRequest_loadEncRsp (r : EncRsp) (s : State) (p : PortInputs) :
    decRequest (loadEncRsp r s) p = decRequest s p := rfl

theorem decRequest_dropEncRsp (s : State) (p : PortInputs) : decRequest (dropEncRsp s) p = decRequest s p := rfl

/-- The transfers of a cycle do not depend on the host's later cycles. -/
theorem encRequest_nextCycle (s : State) (p : PortInputs) : encRequest (nextCycle s) p = encRequest s p := rfl

theorem decRequest_nextCycle (s : State) (p : PortInputs) : decRequest (nextCycle s) p = decRequest s p := rfl

theorem step_loop {s : State} {port : LoopPort} (h : currentCycle s = .loop port) :
    step s = .refused (.combinationalLoop port) := by simp only [step, clockCycle, h]

theorem step_driven {s : State} {p : PortInputs} (h : currentCycle s = .driven p) : step s = edge p (nextCycle s) := by
  simp only [step, clockCycle, h]

theorem edge_rst {s : State} {p : PortInputs} (h : p.rst = true) : edge p s = .next (resetEdge s) := by
  simp only [edge, h, if_true]

theorem edge_run {s : State} {p : PortInputs} (h : p.rst = false) : edge p s = andThen (encEdge p s) (decEdge p) := by
  simp [edge, h]

end Sys2Proof.Machine
end

