-- ==== Sys2Proof/Laws/Tables.lean ====
section
/-! SUPPORT. The form of the tables (20_memory.md R26, R27): no read of either ever falls outside it. -/

namespace Sys2Proof.Machine

open Sys2Proof

/-- Every row of DEC_LUT has sixteen entries, so that `decLut` reads an entry of the table for every byte. -/
theorem decRow_length (hi : Nat) : (decRow hi).length = 16 := by
  unfold decRow
  split <;> rfl

/-- `ENC_LUT` as a plain list read. -/
theorem encLut_eq_getD (d : Digit) : encLut d = encTable.getD d.val 0   :=
  (List.getD_eq_getElem encTable 0 (by rw [encTable_length]; exact d.isLt)).symm

end Sys2Proof.Machine
end

