-- ==== Sys2Proof/Tests/Slice0.lean ====
section
/-! SUPPORT. The model's own tests. Expected words and results are those of spec/95_test_vectors.md (rows named in the test's
comment) or of the rules' own examples; the witnesses show that each statement's hypotheses can be met together. -/

namespace Sys2Proof.Tests

open Sys2Proof Sys2Proof.Machine Sys2Proof.Safety

/-! ## Helpers -/

/-- The next state of an outcome, if it has one. -/
def nextOf : Host.Outcome State Fault Refusal → Option State
  | .next s => some s
  | .fault _ => none
  | .refused _ => none

/-- The ENC_RSP word after an operation from reset. -/
def encWordAfter (i : Instr) : Option (BitVec 27) := (nextOf (exec i State.reset)).map (·.encRsp.word)

/-- The low DEC_RSP bits and the error offset after an operation from reset. -/
def decWordAfter (i : Instr) : Option (BitVec 23 × Nat) :=
  (nextOf (exec i State.reset)).map fun t => (t.decRsp.wordLow, t.decRsp.erroff)

/-- The request a word decodes to at the suggested offset width. -/
def decoded (ch : Channel) (w : Nat) : Option Instr :=
  match decode Config.suggested ch w with
  | .ok i => some i
  | .error _ => none

/-- A host that drives zeros. -/
def idle : PortInputs := ⟨false, false, 0, 0, false, false, 0, 0, 0, false⟩

/-- Reset state with one settled cycle. -/
def facing (p : PortInputs) : State := { State.reset with pins := [.driven p] }

/-- Both units hold a response: ENC that of ENC1 "5", DEC that of DEC2 "U5" (program P5). -/
def holding (p : PortInputs) : State :=
  { facing p with encRspValid := true, encRsp := ⟨0, 2, 0x003138⟩, decRspValid := true, decRsp := ⟨0, 1, 2, 0x00FF, 0⟩ }

/-- A host that offers ENC1 "5" and DEC2 "U5" @0 and takes no response (program P5, cycle 1, without `enc_rsp_ready`). -/
def offerBoth : PortInputs := ⟨false, true, 1, 0x0035, false, true, 2, 0x003555, 0, false⟩

/-! ## Well-formedness: the one check, an offset beyond the wires, for each decoder request, and the build parameter -/

theorem test_wf_dec0_offset_too_wide : Instr.wf Config.suggested (.dec0 0 0 0 (2 ^ 32)) = false := by decide
theorem test_wf_dec1_offset_too_wide : Instr.wf Config.suggested (.dec1 0 0 0 (2 ^ 32)) = false := by decide
theorem test_wf_dec2_offset_too_wide : Instr.wf Config.suggested (.dec2 0 0 0 (2 ^ 32)) = false := by decide
theorem test_wf_dec3_offset_too_wide : Instr.wf ⟨2⟩ (.dec3 0 0 0 4) = false := by decide
theorem test_wf_dec3_largest_offset : Instr.wf Config.suggested (.dec3 0 0 0 (2 ^ 32 - 1)) = true := by decide
theorem test_wf_config_below_two : Config.wf ⟨1⟩ = false ∧ Config.wf ⟨2⟩ = true := by decide

/-! ## Decoding: each operation's word -/

/-- E19: cnt 0, data 0xFFFF. -/
theorem test_decode_enc0 : decoded .enc 0x0FFFF = some (.enc0 0xFF 0xFF) := by decide
/-- E17: cnt 1, b1 0xAA, b0 0x35. -/
theorem test_decode_enc1 : decoded .enc 0x1AA35 = some (.enc1 0x35 0xAA) := by decide
/-- E1: cnt 2, b1 'B', b0 'A'. -/
theorem test_decode_enc2 : decoded .enc 0x24241 = some (.enc2 0x41 0x42) := by decide
/-- E21: cnt 3, data 0x4241. -/
theorem test_decode_enc3 : decoded .enc 0x34241 = some (.enc3 0x41 0x42) := by decide
/-- D30: off 7, cnt 0, lanes "abc". -/
theorem test_decode_dec0 : decoded .dec (7 * 2 ^ 26 + 0x0636261) = some (.dec0 0x61 0x62 0x63 7) := by decide
/-- R68's example: DEC1 'A' @3 is 0x0D000041. -/
theorem test_decode_dec1 : decoded .dec 0x0D000041 = some (.dec1 0x41 0 0 3) := by decide
/-- P2: DEC2 "81" @9 is 0x26003138. -/
theorem test_decode_dec2 : decoded .dec 0x26003138 = some (.dec2 0x38 0x31 0 9) := by decide
/-- P3: DEC3 "GGW" @3 is 0x0F574747. -/
theorem test_decode_dec3 : decoded .dec 0x0F574747 = some (.dec3 0x47 0x47 0x57 3) := by decide
/-- A word with a bit beyond its channel is no request. -/
theorem test_decode_too_wide : decoded .enc 0x40000 = none ∧ decoded .dec (2 ^ 58) = none := by decide
/-- The table's numbering: ENC rows have three bytes, DEC rows four. -/
theorem test_decodeTableWord :
    decodeTableWord 24 0x24241 = some (.enc2 0x41 0x42) ∧ decodeTableWord 32 0x3574747 = some (.dec3 0x47 0x47 0x57 0) := by
  decide
/-- R57: omitted lanes are 0x00 and the offset defaults to 0 (D1, E12, E20). -/
theorem test_encode_asm : encode (Asm.dec3 0x42 0x42 0x38) = 0x3384242 ∧ encode (Asm.enc1 0x35) = 0x10035 ∧
    encode Asm.enc3 = 0x30000 := by decide

/-! ## The tables (T1 to T10) -/

theorem test_encLut : encLut 0 = 0x30 ∧ encLut 36 = 0x20 ∧ encLut 44 = 0x3A := by decide
theorem test_decLut_valid : decLut 0x20 = some 36 ∧ decLut 0x2F = some 43 ∧ decLut 0x5A = some 35 := by decide
theorem test_decLut_invalid : decLut 0x2C = none ∧ decLut 0x40 = none ∧ decLut 0x5B = none ∧ decLut 0xFF = none := by
  decide

/-! ## The operations -/

/-- E19. -/
theorem test_enc0 : encWordAfter (.enc0 0xFF 0xFF) = some 0x0000000 := by decide
/-- E17: b1 is ignored. -/
theorem test_enc1_ignores_b1 : encWordAfter (.enc1 0x35 0xAA) = some 0x2003138 := by decide
/-- E14: the largest short block. -/
theorem test_enc1_max : encWordAfter (.enc1 0xFF 0) = some 0x2003555 := by decide
/-- E5: the first byte is the high byte. -/
theorem test_enc2_byte_order : encWordAfter (.enc2 0x01 0x00) = some 0x3303556 := by decide
/-- E3: the largest full block. -/
theorem test_enc2_max : encWordAfter (.enc2 0xFF 0xFF) = some 0x3574746 := by decide
/-- E21. -/
theorem test_enc3 : encWordAfter (.enc3 0x41 0x42) = some 0x4000000 := by decide
/-- D30. -/
theorem test_dec0 : decWordAfter (.dec0 0x61 0x62 0x63 7) = some (0x100000, 0) := by decide
/-- D27. -/
theorem test_dec1 : decWordAfter (.dec1 0x41 0 0 3) = some (0x400000, 3) := by decide
/-- D28: an invalid lone character is still ERR_LONE. -/
theorem test_dec1_invalid : decWordAfter (.dec1 0x61 0 0 0) = some (0x400000, 0) := by decide
/-- D21: no range check on a short block. -/
theorem test_dec2_no_range_check : decWordAfter (.dec2 0x3A 0x3A 0 0) = some (0x0600E8, 0) := by decide
/-- D25: an invalid character in lane 1. -/
theorem test_dec2_invalid_lane1 : decWordAfter (.dec2 0x30 0x61 0 4) = some (0x200000, 5) := by decide
/-- D6: the largest value overflows, byte0 truncated. -/
theorem test_dec3_overflow : decWordAfter (.dec3 0x3A 0x3A 0x3A 0) = some (0x3BF463, 3) := by decide
/-- D16: the offset wraps modulo 2^32. -/
theorem test_dec3_offset_wraps : decWordAfter (.dec3 0x47 0x47 0x57 0xFFFFFFFE) = some (0x3B0000, 1) := by decide

/-! ## The step -/

/-- P5, cycle 1: both units take a request at one edge. -/
theorem test_step_both :
    (nextOf (step (facing offerBoth))).map (fun t => (t.encRspValid, t.encRsp.word, t.decRspValid, t.decRsp.wordLow)) =
      some (true, 0x2003138, true, 0x0600FF) := by decide
/-- P5, cycle 3: reset drops both responses and keeps the payload, whatever `*_rsp_ready` says (H1). -/
theorem test_step_reset_discards :
    (nextOf (step (holding { idle with rst := true, encRspReady := true, decRspReady := true }))).map
      (fun t => (t.encRspValid, t.encRsp.word, t.decRspValid, t.decRsp.wordLow)) =
      some (false, 0x2003138, false, 0x0600FF) := by decide
/-- H4: a held response is not overwritten, and the request is not taken. -/
theorem test_step_stall :
    (nextOf (step (holding { offerBoth with encInCnt := 3 }))).map (fun t => (t.encRspValid, t.encRsp.word)) =
      some (true, 0x2003138) := by decide
/-- H6: a response is taken, the payload goes stale. -/
theorem test_step_response_taken :
    (nextOf (step (holding { idle with encRspReady := true }))).map (fun t => (t.encRspValid, t.encRsp.word)) =
      some (false, 0x2003138) := by decide
/-- The first instruction after reset: DEC3 "GGW" @0 (D3). -/
theorem test_step_after_withFetchWord :
    (nextOf (step (State.reset.withFetchWord 32 0x3574747))).map (fun t => (t.decRspValid, t.decRsp.word)) =
      some (true, 3 * 2 ^ 23 + 0x3B0000) := by decide
/-- The first instruction after reset: ENC2 "AB" (E1), and a word that no channel carries offers nothing. -/
theorem test_step_after_withFetchWord_enc :
    (nextOf (step (State.reset.withFetchWord 24 0x24241))).map (·.encRsp.word) = some 0x3384242 ∧
    (nextOf (step (State.reset.withFetchWord 24 0x40000))).map (·.encRspValid) = some false := by decide

/-! ## The host contract (S2, S3, P3, P4) -/

/-- S2: "Hello!" gives "%69 VD92E". -/
theorem test_hostEncode : hostEncode State.reset [0x48, 0x65, 0x6C, 0x6C, 0x6F, 0x21] =
    some [0x25, 0x36, 0x39, 0x20, 0x56, 0x44, 0x39, 0x32, 0x45] := by decide
/-- P3: "BB8GGWFGW" stops at the overflow with four bytes and offset 6. -/
theorem test_hostDecode_overflow :
    hostDecode (fun _ _ => 0x61) State.reset [0x42, 0x42, 0x38, 0x47, 0x47, 0x57, 0x46, 0x47, 0x57] =
      some ⟨[0x41, 0x42, 0x00, 0x00], some (3, 6)⟩ := by decide
/-- P4: "BB8A" ends in the lone character at offset 3. -/
theorem test_hostDecode_lone :
    hostDecode (fun _ k => BitVec.ofNat 8 k) State.reset [0x42, 0x42, 0x38, 0x41] = some ⟨[0x41, 0x42], some (4, 3)⟩ := by
  decide

/-! ## Witnesses: the hypotheses of each statement can be met -/

theorem witness_ReadyAfterReset : ∃ (p q : PortInputs) (s t : State),
    currentCycle s = .driven p ∧ p.rst = true ∧ step s = .next t ∧ q.rst = false :=
  ⟨{ idle with rst := true }, idle, holding { idle with rst := true }, _, rfl, rfl, rfl, rfl⟩

theorem witness_ResetEdgeClearsOnlyValidBits : ∃ (s : State) (p : PortInputs), currentCycle s = .driven p ∧ p.rst = true :=
  ⟨holding { idle with rst := true }, _, rfl, rfl⟩

theorem witness_ResetEdgeEstablishesInvariant : ∃ (s : State) (p : PortInputs), s.cfg.wf = true ∧
    s.decRsp.erroff < 2 ^ s.cfg.offsetW ∧ currentCycle s = .driven p ∧ p.rst = true :=
  ⟨holding { idle with rst := true }, _, by decide, by decide, rfl, rfl⟩

theorem witness_ResetEdgeEstablishesInvariant_powerUp : ∃ (c : Config) (p : PortInputs), c.wf = true ∧ p.rst = true :=
  ⟨⟨2⟩, { idle with rst := true }, by decide, rfl⟩

theorem witness_OutputsAreRegistered : ∃ p q : PortInputs, p ≠ q ∧ p.rst = q.rst ∧ p.encRspReady = q.encRspReady ∧
    p.decRspReady = q.decRspReady := ⟨idle, offerBoth, by decide, rfl, rfl, rfl⟩

/-- The four cases of R18 on each unit: reset, request transfer, response transfer alone, no change. -/
theorem witness_CycleUpdatesBothUnits :
    (∃ s p, currentCycle s = .driven p ∧ p.rst = true) ∧
    (∃ s p, currentCycle s = .driven p ∧ p.rst = false ∧ (p.encInValid && encInReady s p) = true ∧
      (p.decInValid && decInReady s p) = true) ∧
    (∃ s p, currentCycle s = .driven p ∧ p.rst = false ∧ (p.encInValid && encInReady s p) = false ∧
      (s.encRspValid && p.encRspReady) = true ∧ (p.decInValid && decInReady s p) = false ∧
      (s.decRspValid && p.decRspReady) = true) ∧
    (∃ s p, currentCycle s = .driven p ∧ p.rst = false ∧ (p.encInValid && encInReady s p) = false ∧
      (s.encRspValid && p.encRspReady) = false ∧ (p.decInValid && decInReady s p) = false ∧
      (s.decRspValid && p.decRspReady) = false) :=
  ⟨⟨facing { idle with rst := true }, _, rfl, rfl⟩, ⟨facing offerBoth, _, rfl, rfl, rfl, rfl⟩,
    ⟨holding { idle with encRspReady := true, decRspReady := true }, _, rfl, rfl, rfl, rfl, rfl, rfl⟩,
    ⟨holding offerBoth, _, rfl, rfl, rfl, rfl, rfl, rfl⟩⟩

/-- A held response on both units, and a request to each at the edge where it is taken. -/
theorem witness_CycleUpdatesBothUnits_overwrite : ∃ (s : State) (p : PortInputs), currentCycle s = .driven p ∧
    encRequest s p ≠ none ∧ s.encRspValid = true ∧ decRequest s p ≠ none ∧ s.decRspValid = true :=
  ⟨holding { offerBoth with encRspReady := true, decRspReady := true }, _, rfl, by decide, rfl, by decide, rfl⟩

theorem witness_StepRunsEncoderRequest : ∃ (s : State) (p : PortInputs) (i : Instr), currentCycle s = .driven p ∧
    p.encInValid = true ∧ encInReady s p = true ∧
    decode s.cfg .enc (packEncReq p.encInCnt p.encInData).toNat = .ok i ∧
    p.decInValid = false ∧ (s.decRspValid = false ∨ p.decRspReady = false) :=
  ⟨holding { offerBoth with encRspReady := true, decInValid := false }, _, .enc1 0x35 0, rfl, rfl, rfl, by decide, rfl,
    .inr rfl⟩

theorem witness_StepRunsDecoderRequest : ∃ (s : State) (p : PortInputs) (i : Instr), currentCycle s = .driven p ∧
    p.decInValid = true ∧ decInReady s p = true ∧
    decode s.cfg .dec (packDecReq (p.decInOff % 2 ^ s.cfg.offsetW) p.decInCnt p.decInChars) = .ok i ∧
    p.encInValid = false ∧ (s.encRspValid = false ∨ p.encRspReady = false) :=
  ⟨holding { offerBoth with decRspReady := true, encInValid := false }, _, .dec2 0x55 0x35 0 0, rfl, rfl, rfl, by decide,
    rfl, .inr rfl⟩

theorem witness_StepRunsBothRequests : ∃ (s : State) (p : PortInputs) (i j : Instr), currentCycle s = .driven p ∧
    p.encInValid = true ∧ encInReady s p = true ∧ p.decInValid = true ∧ decInReady s p = true ∧
    decode s.cfg .enc (packEncReq p.encInCnt p.encInData).toNat = .ok i ∧
    decode s.cfg .dec (packDecReq (p.decInOff % 2 ^ s.cfg.offsetW) p.decInCnt p.decInChars) = .ok j :=
  ⟨facing offerBoth, _, .enc1 0x35 0, .dec2 0x55 0x35 0 0, rfl, rfl, rfl, rfl, rfl, by decide, by decide⟩

theorem witness_PresentedWordRunsNext :
    decode State.reset.cfg (channelOfWidth 24) 0x10035 = .ok (.enc1 0x35 0) ∧
    decode State.reset.cfg (channelOfWidth 32) 0x03384242 = .ok (.dec3 0x42 0x42 0x38 0) := by decide

theorem witness_PayloadMattersOnlyAtTransfer : ∃ (s : State) (p : PortInputs),
    encRequest s p = none ∧ decRequest s p = none := ⟨holding offerBoth, offerBoth, rfl, rfl⟩

theorem witness_StalledResponseIsStable : ∃ (s : State) (p : PortInputs), currentCycle s = .driven p ∧ p.rst = false ∧
    s.encRspValid = true ∧ p.encRspReady = false ∧ s.decRspValid = true ∧ p.decRspReady = false :=
  ⟨holding offerBoth, _, rfl, rfl, rfl, rfl, rfl, rfl⟩

theorem witness_OneCycleLatencyBackToBack : ∃ (s : State) (p : PortInputs), currentCycle s = .driven p ∧ p.rst = false ∧
    p.encInValid = true ∧ p.encRspReady = true ∧ p.decInValid = true ∧ p.decRspReady = true :=
  ⟨holding { offerBoth with encRspReady := true, decRspReady := true }, _, rfl, rfl, rfl, rfl, rfl, rfl⟩

theorem witness_CombinationalLoopIsRefused : ∃ (s : State) (port : LoopPort) (rest : List HostCycle),
    s.pins = .loop port :: rest := ⟨{ State.reset with pins := [.loop .encRspReady] }, _, _, rfl⟩

/-- Two cycles: both units take a request, then the host takes both responses. -/
theorem witness_ResponsesFollowRequestOrder :
    (trace 2 { State.reset with pins :=
        [.driven offerBoth, .driven { idle with encRspReady := true, decRspReady := true }] }).map
      (fun r => (r.1.all (fun e => !e.rst), r.1.map (·.encResponse), r.1.map (·.decResponse))) =
      some (true, [none, some ⟨0, 2, 0x003138⟩], [none, some ⟨0, 1, 2, 0x00FF, 0⟩]) := by decide

/-- ENC's part agrees, DEC's does not. -/
theorem witness_UnitsAreIndependent_enc : ∃ (s s' : State) (p q : PortInputs), currentCycle s = .driven p ∧
    currentCycle s' = .driven q ∧ p.rst = q.rst ∧ s.encRspValid = s'.encRspValid ∧ s.encRsp = s'.encRsp ∧
    p.encInValid = q.encInValid ∧ p.encInCnt = q.encInCnt ∧ p.encInData = q.encInData ∧
    p.encRspReady = q.encRspReady ∧ s.decRspValid ≠ s'.decRspValid ∧ p.decInValid ≠ q.decInValid :=
  ⟨facing offerBoth, { facing { offerBoth with decInValid := false } with decRspValid := true }, _, _, rfl, rfl, rfl, rfl,
    rfl, rfl, rfl, rfl, rfl, by decide, by decide⟩

/-- DEC's part agrees, ENC's does not. -/
theorem witness_UnitsAreIndependent_dec : ∃ (s s' : State) (p q : PortInputs), currentCycle s = .driven p ∧
    currentCycle s' = .driven q ∧ p.rst = q.rst ∧ s.cfg = s'.cfg ∧ s.decRspValid = s'.decRspValid ∧
    s.decRsp = s'.decRsp ∧ p.decInValid = q.decInValid ∧ p.decInCnt = q.decInCnt ∧ p.decInChars = q.decInChars ∧
    p.decInOff = q.decInOff ∧ p.decRspReady = q.decRspReady ∧ s.encRspValid ≠ s'.encRspValid :=
  ⟨facing offerBoth, { facing { offerBoth with encInValid := false } with encRspValid := true }, _, _, rfl, rfl, rfl, rfl,
    rfl, rfl, rfl, rfl, rfl, rfl, rfl, by decide⟩

theorem witness_NoStickyError : (holding idle).cfg = State.reset.cfg ∧ holding idle ≠ State.reset ∧
    (Instr.enc2 1 2).channel = .enc ∧ (Instr.dec3 1 2 3 4).channel = .dec := by decide

theorem witness_TablesAreInverse : ∃ (b : Byte) (d : Digit), decLut b = some d := ⟨0x3A, 44, by decide⟩

/-- Both ends of the two ranges of INVALID rows. -/
theorem witness_DecodeTableValidEntries : (0x00 : Byte).toNat < 0x20 ∧ (0x1F : Byte).toNat < 0x20 ∧
    0x60 ≤ (0x60 : Byte).toNat ∧ 0x60 ≤ (0xFF : Byte).toNat := by decide

theorem witness_encoder_channel : ∃ i : Instr, i.channel = .enc := ⟨.enc3 0 0, rfl⟩

theorem witness_decoder_channel : ∃ i : Instr, i.channel = .dec := ⟨.dec1 0 0 0 0, rfl⟩

/-- Each case of DEC2: "a5", "Ua" and "V5", the first value above a byte. -/
theorem witness_Dec2DecodesShortBlock : decLut 0x61 = none ∧ (decLut 0x55 = some 30 ∧ decLut 0x61 = none) ∧
    (decLut 0x56 = some 31 ∧ decLut 0x35 = some 5) := by decide

/-- Each case of DEC3: an invalid lane 0, 1, 2, then "FGW" and "GGW", the values on both sides of the range check. -/
theorem witness_Dec3DecodesFullBlock : decLut 0x61 = none ∧
    (decLut 0x46 = some 15 ∧ decLut 0x47 = some 16 ∧ decLut 0x57 = some 32) ∧
    15 + 45 * 16 + 2025 * 32 = 65535 ∧ 16 + 45 * 16 + 2025 * 32 = 65536 := by decide

theorem witness_DecoderValueRanges : overflows (fullDigitsValue 15 16 32) = false ∧
    overflows (fullDigitsValue 16 16 32) = true := by decide

/-- Each status of R75 is reached by a request. -/
theorem witness_ErrorOffsetPerCause :
    decWordAfter (.dec3 0x46 0x61 0x57 100) = some (0x200000, 101) ∧ decWordAfter (.dec3 0x47 0x47 0x57 0) = some (0x3B0000, 3) ∧
    decWordAfter (.dec1 0x41 0 0 3) = some (0x400000, 3) ∧ decWordAfter (.dec2 0x55 0x35 0 0) = some (0x0600FF, 0) ∧
    decWordAfter (.dec0 0 0 0 0) = some (0x100000, 0) := by decide

/-- Lane 2 the lowest invalid one at `cnt` = 3, lane 1 at `cnt` = 2, and all lanes valid. -/
theorem witness_StatusPriority :
    (2 ≤ (3 : BitVec 2).toNat ∧ (2 : Nat) < (3 : BitVec 2).toNat ∧ decLut (lane 2 (0x613A3A : BitVec 24)) = none ∧
      ∀ j < 2, decLut (lane j (0x613A3A : BitVec 24)) ≠ none) ∧
    (2 ≤ (2 : BitVec 2).toNat ∧ (1 : Nat) < (2 : BitVec 2).toNat ∧ decLut (lane 1 (0x006130 : BitVec 24)) = none ∧
      ∀ j < 1, decLut (lane j (0x006130 : BitVec 24)) ≠ none) ∧
    (∀ k < (3 : BitVec 2).toNat, decLut (lane k (0x574746 : BitVec 24)) ≠ none) := by decide

/-- Both ends of the offset range at the smallest width. -/
theorem witness_DecodeOfEncodeIsIdentity : Instr.wf ⟨2⟩ (.dec3 0x46 0x47 0x57 3) = true ∧
    Instr.wf ⟨2⟩ (.dec0 0 0 0 0) = true ∧ Instr.wf ⟨2⟩ (.enc3 0xFF 0xFF) = true := by decide

theorem witness_EncodeOfDecodeIsIdentity : ∃ i j, decode ⟨2⟩ .enc (2 ^ 18 - 1) = .ok i ∧ decode ⟨2⟩ .dec (2 ^ 28 - 1) = .ok j :=
  ⟨.enc3 0xFF 0xFF, .dec3 0xFF 0xFF 0xFF 3, by decide, by decide⟩

/-- The last word of each channel and the first beyond it. -/
theorem witness_word_ranges : 2 ^ 18 - 1 < 2 ^ 18 ∧ 2 ^ 28 - 1 < 2 ^ (26 + (⟨2⟩ : Config).offsetW) ∧ 2 ^ 18 ≤ 2 ^ 18 ∧
    2 ^ (26 + (⟨2⟩ : Config).offsetW) ≤ 2 ^ 28 := by decide

/-- A state that holds two responses meets the invariant, and its step answers a next state. -/
theorem witness_StepKeepsInvariant : ∃ s t : State, Inv s ∧ s.encRspValid = true ∧ s.decRspValid = true ∧ step s = .next t :=
  ⟨holding idle, _, ⟨by decide, by decide, by decide, by decide⟩, rfl, rfl, rfl⟩

theorem witness_PayloadStaysLegal : ∃ (s t : State) (p : PortInputs), currentCycle s = .driven p ∧ step s = .next t ∧
    encLegal s.encRsp = true ∧ decLegal s.decRsp = false ∧ decRequest s p ≠ none :=
  ⟨facing offerBoth, _, _, rfl, rfl, by decide, by decide, by decide⟩

theorem witness_StepKeepsBuildParameter : ∃ s t : State, step s = .next t := ⟨facing offerBoth, _, rfl⟩

theorem witness_HeldStatusIsOneOfFive : ∃ s : State, Inv s ∧ s.decRspValid = true :=
  ⟨holding idle, ⟨by decide, by decide, by decide, by decide⟩, rfl⟩

/-- A decode without error, and one of a length that is 1 modulo 3. -/
theorem witness_WholeBufferDecodeBound :
    hostDecode (fun _ _ => 0) State.reset [0x46, 0x47, 0x57, 0x55, 0x35] = some ⟨[0xFF, 0xFF, 0xFF], none⟩ ∧
    [(0x46 : Byte), 0x47, 0x57, 0x55].length % 3 = 1 := by decide

/-- After "BB8", each kind of corrupt block: "GGW" overflows, "a" is alone, "a5" and "Ua" hold an invalid character. -/
theorem witness_WholeBufferStopsAtFirstError : [(0x41 : Byte), 0x42].length % 2 = 0 ∧
    hostEncode State.reset [0x41, 0x42] = some [0x42, 0x42, 0x38] ∧
    ∀ tail ∈ [[(0x47 : Byte), 0x47, 0x57, 0x46], [0x61], [0x61, 0x35], [0x55, 0x61]], ∃ t : State,
      exec (decsRequest State.reset.cfg.offsetW (fun _ _ => 0x30) ([0x42, 0x42, 0x38] ++ tail) 3).instr State.reset = .next t ∧
      isCorruptInput t.decRsp.status = true := by
  refine ⟨by decide, by decide, fun tail h => ?_⟩
  simp only [List.mem_cons, List.not_mem_nil, or_false] at h
  rcases h with rfl | rfl | rfl | rfl <;> exact ⟨_, rfl, by decide⟩

/-- The clauses of the two final forms after "BB8": "a5" and "Ua". -/
theorem witness_WholeBufferErrorInFinalBlock : [(0x41 : Byte), 0x42].length % 2 = 0 ∧
    hostEncode State.reset [0x41, 0x42] = some [0x42, 0x42, 0x38] ∧ decLut 0x61 = none ∧ decLut 0x55 = some 30 := by decide

/-- ERR_OVERFLOW, ERR_INVALID and ERR_LONE each come from a decoder request. -/
theorem witness_OutputUnderError : (Instr.dec3 0x47 0x47 0x57 0).channel = .dec ∧
    decWordAfter (.dec3 0x47 0x47 0x57 0) = some (0x3B0000, 3) ∧ decWordAfter (.dec2 0x30 0x61 0 4) = some (0x200000, 5) ∧
    decWordAfter (.dec1 0x41 0 0 3) = some (0x400000, 3) := by decide

end Sys2Proof.Tests
end

/-! ## Family 10_state: the ready ports, the outputs, and the per-cycle update of both units -/

namespace Sys2Proof.Machine

open Sys2Proof Sys2Proof.Safety

/-! ### The ready ports (R17) and the transfers they allow (R16) -/

theorem encInReady_iff (s : State) (p : PortInputs) :
    encInReady s p = true ↔ p.rst = false ∧ (s.encRspValid = false ∨ p.encRspReady = true) := by
  simp [encInReady]

theorem decInReady_iff (s : State) (p : PortInputs) :
    decInReady s p = true ↔ p.rst = false ∧ (s.decRspValid = false ∨ p.decRspReady = true) := by
  simp [decInReady]

theorem encInReady_congr (s : State) {p q : PortInputs} (hrst : p.rst = q.rst) (hrdy : p.encRspReady = q.encRspReady) :
    encInReady s p = encInReady s q := by
  simp only [encInReady, hrst, hrdy]

theorem decInReady_congr (s : State) {p q : PortInputs} (hrst : p.rst = q.rst) (hrdy : p.decRspReady = q.decRspReady) :
    decInReady s p = decInReady s q := by
  simp only [decInReady, hrst, hrdy]

theorem encRequest_of_transfer {s : State} {p : PortInputs} (h : (p.encInValid && encInReady s p) = true) :
    encRequest s p = some ⟨p.encInCnt, p.encInData⟩ := if_pos h

theorem encRequest_of_no_transfer {s : State} {p : PortInputs} (h : ¬(p.encInValid && encInReady s p) = true) :
    encRequest s p = none := if_neg h

theorem decRequest_of_transfer {s : State} {p : PortInputs} (h : (p.decInValid && decInReady s p) = true) :
    decRequest s p = some ⟨p.decInCnt, p.decInChars, p.decInOff % 2 ^ s.cfg.offsetW⟩ := if_pos h

theorem decRequest_of_no_transfer {s : State} {p : PortInputs} (h : ¬(p.decInValid && decInReady s p) = true) :
    decRequest s p = none := if_neg h

theorem encInReady_of_encRequest {s : State} {p : PortInputs} (h : encRequest s p ≠ none) :
    encInReady s p = true := by
  by_contra hr
  exact h (encRequest_of_no_transfer (by simp [hr]))

theorem decInReady_of_decRequest {s : State} {p : PortInputs} (h : decRequest s p ≠ none) :
    decInReady s p = true := by
  by_contra hr
  exact h (decRequest_of_no_transfer (by simp [hr]))

/-- A unit that holds a response is ready only in a cycle in which the host takes that response (R17). -/
theorem encResponseTaken_of_ready {s : State} {p : PortInputs} (hr : encInReady s p = true)
    (hv : s.encRspValid = true) : encResponseTaken s p = some s.encRsp := by
  obtain ⟨hrst, hempty | htaken⟩ := (encInReady_iff s p).mp hr
  · simp [hempty] at hv
  · simp [encResponseTaken, hrst, hv, htaken]

theorem decResponseTaken_of_ready {s : State} {p : PortInputs} (hr : decInReady s p = true)
    (hv : s.decRspValid = true) : decResponseTaken s p = some s.decRsp := by
  obtain ⟨hrst, hempty | htaken⟩ := (decInReady_iff s p).mp hr
  · simp [hempty] at hv
  · simp [decResponseTaken, hrst, hv, htaken]

/-! ### The encoder's operations compute ENCODE (R58) -/

/-- The `cnt` field of either channel takes four values (R12, R14). -/
theorem cnt_cases (cnt : BitVec 2) : cnt = 0 ∨ cnt = 1 ∨ cnt = 2 ∨ cnt = 3 := by
  revert cnt
  decide

theorem toNat_lane_zero_data (data : BitVec 16) : (lane 0 data).toNat = data.toNat % 256 := by
  rw [toNat_lane]
  omega

theorem toNat_lane_one_data (data : BitVec 16) : (lane 1 data).toNat = data.toNat / 256 := by
  have := data.isLt
  rw [toNat_lane]
  omega

theorem toNat_refChars (d0 d1 d2 : Digit) : (refChars d0.val d1.val d2.val).toNat =
    (encLut d2).toNat * 65536 + (encLut d1).toNat * 256 + (encLut d0).toNat := by
  have h0 := (encLut d0).isLt
  have h1 := (encLut d1).isLt
  have h2 := (encLut d2).isLt
  simp only [refChars, ← encLut_eq_getD, BitVec.toNat_ofNat]
  omega

/-- The characters of a full block are the transcription's (R58, `cnt` = 2). -/
theorem lanes3_encLut (d0 d1 d2 : Digit) :
    lanes3 (encLut d0) (encLut d1) (encLut d2) = refChars d0.val d1.val d2.val :=
  BitVec.eq_of_toNat_eq ((toNat_lanes3 _ _ _).trans (toNat_refChars d0 d1 d2).symm)

/-- The characters of a short block are the transcription's, with lane 2 cleared (R58, `cnt` = 1). -/
theorem lanes3_encLut_zero (d0 d1 : Digit) :
    lanes3 (encLut d0) (encLut d1) 0 = BitVec.ofNat 24 ((refChars d0.val d1.val 0).toNat % 65536) := by
  have h0 := (encLut d0).isLt
  have h1 := (encLut d1).isLt
  apply BitVec.eq_of_toNat_eq
  have hz : (0 : Byte).toNat = 0 := rfl
  rw [toNat_lanes3, BitVec.toNat_ofNat, show (0 : Nat) = (0 : Digit).val from rfl, toNat_refChars, hz]
  omega

theorem encFullResponse_eq_refEncode (data : BitVec 16) :
    encFullResponse (lane 0 data) (lane 1 data) = refEncode 2 data := by
  simp only [encFullResponse, lanes3_encLut, digit0, digit1, fullDigit2, fullBytesValue, toNat_lane_zero_data,
    toNat_lane_one_data]
  rfl

theorem encShortResponse_eq_refEncode (data : BitVec 16) : encShortResponse (lane 0 data) = refEncode 1 data := by
  simp only [encShortResponse, lanes3_encLut_zero, digit0, shortDigit1, shortBytesValue, toNat_lane_zero_data]
  rfl

/-- What ENC answers to a sampled request is ENCODE of its fields (R58). -/
theorem exec_encReq (r : EncReq) (s : State) : exec r.instr s = .next (loadEncRsp (refEncode r.cnt r.data) s) := by
  obtain ⟨cnt, data⟩ := r
  rcases cnt_cases cnt with rfl | rfl | rfl | rfl
  · rw [EncReq.instr, decodeEncReq_pack_0]; rfl
  · rw [EncReq.instr, decodeEncReq_pack_1, ← encShortResponse_eq_refEncode]; rfl
  · rw [EncReq.instr, decodeEncReq_pack_2, ← encFullResponse_eq_refEncode]; rfl
  · rw [EncReq.instr, decodeEncReq_pack_3]; rfl

/-! ### The decoder's operations compute DECODE (R65) -/

/-- DEC_LUT is the inverse table of the alphabet (R26, R27): each entry is the position of its character. -/
theorem refDigit_toNat (b : Byte) : refDigit b.toNat = (decLut b).map Fin.val := by
  revert b
  decide

@[simp] theorem refDigit_lane_zero (chars : BitVec 24) :
    refDigit (chars.toNat % 256) = (decLut (lane 0 chars)).map Fin.val := by
  rw [← refDigit_toNat, toNat_lane]
  simp

@[simp] theorem refDigit_lane_one (chars : BitVec 24) :
    refDigit (chars.toNat / 256 % 256) = (decLut (lane 1 chars)).map Fin.val := by
  rw [← refDigit_toNat, toNat_lane]
  rfl

@[simp] theorem refDigit_lane_two (chars : BitVec 24) :
    refDigit (chars.toNat / 65536) = (decLut (lane 2 chars)).map Fin.val := by
  have := chars.isLt
  rw [← refDigit_toNat, toNat_lane]
  congr 1
  omega

theorem lanes2_truncByte_zero (v : Nat) : lanes2 (truncByte v) 0 = BitVec.ofNat 16 (v % 256) := by
  apply BitVec.eq_of_toNat_eq
  have hz : (0 : Byte).toNat = 0 := rfl
  simp only [toNat_lanes2, truncByte, BitVec.toNat_ofNat, hz]
  omega

theorem fullBlockBytes_eq_ofNat (v : Nat) : fullBlockBytes v = BitVec.ofNat 16 (v % 256 * 256 + v / 256 % 256) := by
  apply BitVec.eq_of_toNat_eq
  simp only [fullBlockBytes, toNat_lanes2, truncByte, BitVec.toNat_ofNat]
  omega

theorem refValue_two (c0 c1 : Digit) : refValue [c0.val, c1.val] = shortDigitsValue c0 c1 := by
  simp only [refValue, shortDigitsValue]
  omega

theorem refValue_three (c0 c1 c2 : Digit) : refValue [c0.val, c1.val, c2.val] = fullDigitsValue c0 c1 c2 := by
  simp only [refValue, fullDigitsValue]
  omega

/-- What three valid digits give, in the transcription's form. -/
theorem decFullBlock_eq (w : Nat) (c0 c1 c2 : Digit) (off : Nat) :
    decFullBlock w c0 c1 c2 off =
      if fullDigitsValue c0 c1 c2 > 65535 then
        ⟨3, 2, 3, BitVec.ofNat 16 (fullDigitsValue c0 c1 c2 % 256 * 256 + fullDigitsValue c0 c1 c2 / 256 % 256),
          (off + 3) % 2 ^ w⟩
      else
        ⟨0, 2, 3, BitVec.ofNat 16 (fullDigitsValue c0 c1 c2 % 256 * 256 + fullDigitsValue c0 c1 c2 / 256 % 256), 0⟩ := by
  rw [← fullBlockBytes_eq_ofNat]
  rcases decFullBlock_cases w c0 c1 c2 off with ⟨hv, h⟩ | ⟨hv, h⟩
  · rw [h, if_pos hv]
    rfl
  · rw [h, if_neg (by omega)]
    rfl

theorem invalidCharResponse_eq (w off k : Nat) :
    invalidCharResponse w off k = ⟨2, 0, 0, 0, (off + k) % 2 ^ w⟩ := rfl

/-- A short block: the lowest invalid lane, or the byte of its value (R65, `cnt` = 2). -/
theorem decShortResponse_eq_refDecode (w : Nat) (chars : BitVec 24) (off : Nat) :
    decShortResponse w (lane 0 chars) (lane 1 chars) off = refDecode w 2 chars off := by
  rcases decShortResponse_cases w (lane 0 chars) (lane 1 chars) off with
    ⟨e0, h⟩ | ⟨c0, e0, e1, h⟩ | ⟨c0, c1, e0, e1, h⟩
  · simp [h, invalidCharResponse_eq, refDecode, e0, List.findIdx?_cons]
  · simp [h, invalidCharResponse_eq, refDecode, e0, e1, List.findIdx?_cons]
  · rw [h, lanes2_truncByte_zero]
    simp [cleanResponse, DecStatus.code, refDecode, e0, e1, List.findIdx?_cons, refValue_two]

/-- A full block: the lowest invalid lane, or both bytes of its value with the range check (R65, `cnt` = 3). -/
theorem decFullResponse_eq_refDecode (w : Nat) (chars : BitVec 24) (off : Nat) :
    decFullResponse w (lane 0 chars) (lane 1 chars) (lane 2 chars) off = refDecode w 3 chars off := by
  rcases decFullResponse_cases w (lane 0 chars) (lane 1 chars) (lane 2 chars) off with
    ⟨e0, h⟩ | ⟨c0, e0, e1, h⟩ | ⟨c0, c1, e0, e1, e2, h⟩ | ⟨c0, c1, c2, e0, e1, e2, h⟩
  · simp [h, invalidCharResponse_eq, refDecode, e0, List.findIdx?_cons]
  · simp [h, invalidCharResponse_eq, refDecode, e0, e1, List.findIdx?_cons]
  · simp [h, invalidCharResponse_eq, refDecode, e0, e1, e2, List.findIdx?_cons]
  · rw [h, decFullBlock_eq]
    simp [refDecode, e0, e1, e2, List.findIdx?_cons, refValue_three]

/-- What DEC answers to a sampled request is DECODE of its fields (R65). -/
theorem exec_decReq (r : DecReq) (s : State) :
    exec r.instr s = .next (loadDecRsp (refDecode s.cfg.offsetW r.cnt r.chars r.off) s) := by
  obtain ⟨cnt, chars, off⟩ := r
  rcases cnt_cases cnt with rfl | rfl | rfl | rfl
  · rw [DecReq.instr, decodeDecReq_pack_0]; rfl
  · rw [DecReq.instr, decodeDecReq_pack_1]; rfl
  · rw [DecReq.instr, decodeDecReq_pack_2, ← decShortResponse_eq_refDecode]; rfl
  · rw [DecReq.instr, decodeDecReq_pack_3, ← decFullResponse_eq_refDecode]; rfl

/-! ### What one edge leaves (R18) -/

/-- The state after ENC's part of an edge outside reset: the three cases of R18 with `F_enc` = ENCODE. -/
def encAfter (p : PortInputs) (s : State) : State :=
  if p.encInValid && encInReady s p then loadEncRsp (refEncode p.encInCnt p.encInData) s
  else if s.encRspValid && p.encRspReady then dropEncRsp s
  else s

/-- The state after DEC's part of an edge outside reset: the three cases of R18 with `F_dec` = DECODE. -/
def decAfter (p : PortInputs) (s : State) : State :=
  if p.decInValid && decInReady s p then
    loadDecRsp (refDecode s.cfg.offsetW p.decInCnt p.decInChars (p.decInOff % 2 ^ s.cfg.offsetW)) s
  else if s.decRspValid && p.decRspReady then dropDecRsp s
  else s

theorem encEdge_eq (p : PortInputs) (s : State) : encEdge p s = .next (encAfter p s) := by
  unfold encAfter
  split
  case isTrue h => exact (encEdge_request (encRequest_of_transfer h)).trans (exec_encReq _ s)
  case isFalse h => exact encEdge_no_request (encRequest_of_no_transfer h)

theorem decEdge_eq (p : PortInputs) (s : State) : decEdge p s = .next (decAfter p s) := by
  unfold decAfter
  split
  case isTrue h => exact (decEdge_request (decRequest_of_transfer h)).trans (exec_decReq _ s)
  case isFalse h => exact decEdge_no_request (decRequest_of_no_transfer h)

/-- ENC's valid bit and payload after the edge, case by case (R18). -/
theorem encAfter_rsp (p : PortInputs) (s : State) :
    ((encAfter p s).encRspValid, (encAfter p s).encRsp) =
      if p.encInValid && encInReady s p then (true, refEncode p.encInCnt p.encInData)
      else if s.encRspValid && p.encRspReady then (false, s.encRsp)
      else (s.encRspValid, s.encRsp) := by
  unfold encAfter
  split_ifs <;> rfl

/-- DEC's valid bit and payload after the edge, case by case (R18). -/
theorem decAfter_rsp (p : PortInputs) (s : State) :
    ((decAfter p s).decRspValid, (decAfter p s).decRsp) =
      if p.decInValid && decInReady s p then
        (true, refDecode s.cfg.offsetW p.decInCnt p.decInChars (p.decInOff % 2 ^ s.cfg.offsetW))
      else if s.decRspValid && p.decRspReady then (false, s.decRsp)
      else (s.decRspValid, s.decRsp) := by
  unfold decAfter
  split_ifs <;> rfl

/-- The frame of ENC's part of an edge: only ENC's two registers can change (R10). -/
theorem encAfter_frame (p : PortInputs) (s : State) :
    encAfter p s = { s with encRspValid := (encAfter p s).encRspValid, encRsp := (encAfter p s).encRsp } := by
  unfold encAfter
  split_ifs <;> rfl

/-- The frame of DEC's part of an edge: only DEC's two registers can change (R10). -/
theorem decAfter_frame (p : PortInputs) (s : State) :
    decAfter p s = { s with decRspValid := (decAfter p s).decRspValid, decRsp := (decAfter p s).decRsp } := by
  unfold decAfter
  split_ifs <;> rfl

@[simp] theorem encAfter_cfg (p : PortInputs) (s : State) : (encAfter p s).cfg = s.cfg := by rw [encAfter_frame]
@[simp] theorem encAfter_decRspValid (p : PortInputs) (s : State) : (encAfter p s).decRspValid = s.decRspValid := by
  rw [encAfter_frame]
@[simp] theorem encAfter_decRsp (p : PortInputs) (s : State) : (encAfter p s).decRsp = s.decRsp := by
  rw [encAfter_frame]
@[simp] theorem encAfter_pins (p : PortInputs) (s : State) : (encAfter p s).pins = s.pins := by rw [encAfter_frame]
@[simp] theorem encAfter_cycle (p : PortInputs) (s : State) : (encAfter p s).cycle = s.cycle := by rw [encAfter_frame]

@[simp] theorem decAfter_cfg (p : PortInputs) (s : State) : (decAfter p s).cfg = s.cfg := by rw [decAfter_frame]
@[simp] theorem decAfter_encRspValid (p : PortInputs) (s : State) : (decAfter p s).encRspValid = s.encRspValid := by
  rw [decAfter_frame]
@[simp] theorem decAfter_encRsp (p : PortInputs) (s : State) : (decAfter p s).encRsp = s.encRsp := by
  rw [decAfter_frame]
@[simp] theorem decAfter_pins (p : PortInputs) (s : State) : (decAfter p s).pins = s.pins := by rw [decAfter_frame]
@[simp] theorem decAfter_cycle (p : PortInputs) (s : State) : (decAfter p s).cycle = s.cycle := by rw [decAfter_frame]

@[simp] theorem decInReady_encAfter (p q : PortInputs) (s : State) : decInReady (encAfter q s) p = decInReady s p := by
  simp only [decInReady, encAfter_decRspValid]

@[simp] theorem encInReady_nextCycle (s : State) (p : PortInputs) : encInReady (nextCycle s) p = encInReady s p := rfl

@[simp] theorem decInReady_nextCycle (s : State) (p : PortInputs) : decInReady (nextCycle s) p = decInReady s p := rfl

/-- Outside reset a cycle with driven inputs is ENC's update and then DEC's, on the host's next cycle (R18). -/
theorem step_run {s : State} {p : PortInputs} (h : currentCycle s = .driven p) (hrst : p.rst = false) :
    step s = .next (decAfter p (encAfter p (nextCycle s))) := by
  rw [step_driven h, edge_run hrst, encEdge_eq, andThen_next, decEdge_eq]

/-- In reset a cycle with driven inputs is the reset edge, on the host's next cycle (R86). -/
theorem step_rst {s : State} {p : PortInputs} (h : currentCycle s = .driven p) (hrst : p.rst = true) :
    step s = .next (resetEdge (nextCycle s)) := by
  rw [step_driven h, edge_rst hrst]

/-! ### The obligations of 10_state.md -/

/-- Settles O4: each ready port is the formula of R17, in which no `*_in_valid` occurs. -/
theorem readyFollowsRegisterAndReset : Obligations.ReadyFollowsRegisterAndReset := by
  intro s p
  exact ⟨encInReady_iff s p, decInReady_iff s p, fun _ _ =>
    ⟨encInReady_congr s rfl rfl, decInReady_congr s rfl rfl⟩⟩

/-- Settles O5: `outputs` reads the registers, and the two ready ports read `rst` and their own `*_rsp_ready`. -/
theorem outputsAreRegistered : Obligations.OutputsAreRegistered := by
  intro s p q
  exact ⟨⟨rfl, rfl, rfl, rfl⟩, ⟨rfl, rfl, rfl, rfl, rfl, rfl⟩, rfl, encInReady_congr s, decInReady_congr s⟩

/-- Settles O6: a reset edge by `step_rst`, every other edge by `step_run` and each unit's cases; a unit that accepts a
request while it holds a response is one whose response is being taken. -/
theorem cycleUpdatesBothUnits : Obligations.CycleUpdatesBothUnits := by
  intro s p h
  have henc : encRequest s p ≠ none → s.encRspValid = true → encResponseTaken s p = some s.encRsp :=
    fun hr => encResponseTaken_of_ready (encInReady_of_encRequest hr)
  have hdec : decRequest s p ≠ none → s.decRspValid = true → decResponseTaken s p = some s.decRsp :=
    fun hr => decResponseTaken_of_ready (decInReady_of_decRequest hr)
  cases hrst : p.rst with
  | true => exact ⟨_, step_rst h hrst, rfl, rfl, rfl, rfl, rfl, henc, hdec⟩
  | false =>
    refine ⟨_, step_run h hrst, ?_, ?_, by simp, by simp, by simp, henc, hdec⟩
    · simpa using encAfter_rsp p (nextCycle s)
    · simpa using decAfter_rsp p (encAfter p (nextCycle s))

end Sys2Proof.Machine

/-! ## Family 20_memory: the two tables -/

namespace Sys2Proof.Machine

open Sys2Proof

/-- Reading ENC_LUT at every digit in order gives the table back (R26). -/
theorem map_encLut_finRange : (List.finRange 45).map encLut = encTable :=
  List.ext_getElem (by simp [encTable_length]) fun i _ _ => by simp [encLut]

/-- A byte with the hex digits `hi` and `lo` reads column `lo` of row `hi` of DEC_LUT (R27). -/
theorem decLut_ofNat_row {hi lo : Nat} (hhi : hi < 16) (hlo : lo < 16) :
    decLut (BitVec.ofNat 8 (16 * hi + lo)) = (decRow hi).getD lo none := by
  have hb : (BitVec.ofNat 8 (16 * hi + lo)).toNat = 16 * hi + lo := by
    rw [BitVec.toNat_ofNat]
    omega
  have hrow : (16 * hi + lo) / 16 = hi := by omega
  have hcol : (16 * hi + lo) % 16 = lo := by omega
  rw [decLut, hb, hrow, hcol]

/-- The sixteen bytes with the high hex digit `hi` read row `hi` of DEC_LUT in order (R27). -/
theorem map_decLut_row {hi : Nat} (hhi : hi < 16) :
    (List.range 16).map (fun lo => decLut (BitVec.ofNat 8 (16 * hi + lo))) = decRow hi := by
  refine List.ext_getElem (by simp [decRow_length]) fun lo _ hlen => ?_
  have hlo : lo < 16 := decRow_length hi ▸ hlen
  simp [decLut_ofNat_row hhi hlo, List.getElem?_eq_getElem hlen]

/-- Only the rows 2_ to 5_ of DEC_LUT hold a digit (R27). -/
theorem decRow_eq_invalid {hi : Nat} (h : hi < 2 ∨ 6 ≤ hi) : decRow hi = decRowInvalid := by
  unfold decRow
  split
  case h_5 => rfl
  all_goals omega

theorem decLut_eq_none {b : Byte} (h : b.toNat < 0x20 ∨ 0x60 ≤ b.toNat) : decLut b = none := by
  have hrow : b.toNat / 16 < 2 ∨ 6 ≤ b.toNat / 16 := by omega
  have hcol : b.toNat % 16 < 16 := by omega
  rw [decLut, decRow_eq_invalid hrow, decRowInvalid]
  exact List.getD_replicate _ hcol

/-- The numbers below `m * n`, cut into `n` blocks of `m`. -/
theorem range_mul_eq_flatMap (m n : Nat) :
    List.range (m * n) = (List.range n).flatMap fun hi => (List.range m).map (m * hi + ·) := by
  induction n with
  | zero => rfl
  | succ n ih => simp [Nat.mul_succ, List.range_add, List.range_succ, ih]

/-- DEC_LUT in byte order is its sixteen rows one after the other. -/
theorem map_decLut_range :
    (List.range 256).map (fun b => decLut (BitVec.ofNat 8 b)) = (List.range 16).flatMap decRow := by
  rw [range_mul_eq_flatMap 16 16, List.map_flatMap]
  refine List.flatMap_congr fun hi hmem => ?_
  rw [List.map_map]
  exact map_decLut_row (List.mem_range.mp hmem)

/-- The valid entries of DEC_LUT are counted row by row. -/
theorem countP_decLut_isSome :
    ((List.range 256).countP fun b => (decLut (BitVec.ofNat 8 b)).isSome) = 45 := by
  have h : ((List.range 256).map fun b => decLut (BitVec.ofNat 8 b)).countP Option.isSome = 45 := by
    rw [map_decLut_range, List.countP_flatMap]
    decide
  rwa [List.countP_map] at h

/-- Every entry that is not valid is INVALID, so the count of these is what is left of the 256. -/
theorem countP_decLut_isNone :
    ((List.range 256).countP fun b => (decLut (BitVec.ofNat 8 b)).isNone) = 211 := by
  have hsplit := List.length_eq_countP_add_countP (fun b => (decLut (BitVec.ofNat 8 b)).isSome) (l := List.range 256)
  have hnone : ((List.range 256).countP fun b => decide ¬(decLut (BitVec.ofNat 8 b)).isSome = true) =
      (List.range 256).countP fun b => (decLut (BitVec.ofNat 8 b)).isNone :=
    List.countP_congr fun b _ => by simp
  rw [hnone, countP_decLut_isSome, List.length_range] at hsplit
  omega

@[simp] theorem decLut_encLut (i : Digit) : decLut (encLut i) = some i := by
  revert i
  decide

/-! ### The obligations of 20_memory.md -/

/-- Settles O19: the reads in digit order are the table, whose codes are the characters' code points. -/
theorem encodeTableIsTheAlphabet : Obligations.EncodeTableIsTheAlphabet :=
  map_encLut_finRange.trans (by decide)

/-- Settles O21: rows 2_ to 5_ by `map_decLut_row`, the others by `decLut_eq_none`, and the counts over all rows. -/
theorem decodeTableValidEntries : Obligations.DecodeTableValidEntries :=
  ⟨map_decLut_row (hi := 2) (by decide), map_decLut_row (hi := 3) (by decide), map_decLut_row (hi := 4) (by decide),
    map_decLut_row (hi := 5) (by decide), fun _ => decLut_eq_none, countP_decLut_isSome, countP_decLut_isNone,
    decLut_encLut⟩

end Sys2Proof.Machine

/-! ## Family 30_encoding: the request words as packed fields, the opcode map, and the ignored lanes -/

namespace Sys2Proof

/-- A mask whose bits all lie from bit `k` up sees only those bits of a number. -/
theorem and_mul_two_pow (v m k : Nat) : v &&& m * 2 ^ k = (v / 2 ^ k &&& m) * 2 ^ k := by
  apply Nat.eq_of_testBit_eq
  intro i
  by_cases hi : k ≤ i <;> simp [hi, Nat.testBit_mul_two_pow, Nat.testBit_div_two_pow]

/-- A two-bit field at bit `k` is what the mask over it keeps of a word. -/
theorem and_mask_of_field (k high field low : Nat) (hfield : field < 4) (hlow : low < 2 ^ k) :
    (high * 4 + field) * 2 ^ k + low &&& 3 * 2 ^ k = field * 2 ^ k := by
  have habove : ((high * 4 + field) * 2 ^ k + low) / 2 ^ k = high * 4 + field := by
    rw [Nat.mul_comm, Nat.mul_add_div (Nat.two_pow_pos k), Nat.div_eq_of_lt hlow, Nat.add_zero]
  have hand : high * 4 + field &&& 3 = field := by
    rw [show (3 : Nat) = 2 ^ 2 - 1 from rfl, Nat.and_two_pow_sub_one_eq_mod]
    omega
  rw [and_mul_two_pow, habove, hand]

/-- The mask of R50 keeps the `cnt` field of an ENC_REQ word. -/
theorem packEncReq_and_mask (cnt : BitVec 2) (data : BitVec 16) :
    (packEncReq cnt data).toNat &&& 0x30000 = cnt.toNat * 0x10000 := by
  simpa [toNat_packEncReq] using and_mask_of_field 16 0 cnt.toNat data.toNat cnt.isLt data.isLt

/-- The mask of R51 keeps the `cnt` field of a DEC_REQ word, whatever its offset. -/
theorem packDecReq_and_mask (off : Nat) (cnt : BitVec 2) (chars : BitVec 24) :
    packDecReq off cnt chars &&& 0x3000000 = cnt.toNat * 0x1000000 := by
  have hpack : packDecReq off cnt chars = (off * 4 + cnt.toNat) * 2 ^ 24 + chars.toNat := by
    rw [packDecReq, toNat_packDecReqLow]
    omega
  rw [hpack]
  exact and_mask_of_field 24 off cnt.toNat chars.toNat cnt.isLt chars.isLt

/-- Every number of 18 bits is an ENC_REQ word of some ports (R46). -/
theorem exists_packEncReq {w : Nat} (h : w < 2 ^ 18) : ∃ cnt data, w = (packEncReq cnt data).toNat := by
  refine ⟨BitVec.ofNat 2 (w / 65536), BitVec.ofNat 16 w, ?_⟩
  rw [toNat_packEncReq, BitVec.toNat_ofNat, BitVec.toNat_ofNat]
  omega

/-- Every number is a DEC_REQ word of some ports, with what is above bit 25 as its offset (R48). -/
theorem exists_packDecReq (w : Nat) : ∃ off cnt chars, w = packDecReq off cnt chars := by
  refine ⟨w / 2 ^ 26, BitVec.ofNat 2 (w / 2 ^ 24), BitVec.ofNat 24 w, ?_⟩
  rw [packDecReq, toNat_packDecReqLow, BitVec.toNat_ofNat, BitVec.toNat_ofNat]
  omega

/-- The ports' ENC_REQ word decodes to the request they name. -/
theorem decode_packEncReq (c : Config) (cnt : BitVec 2) (data : BitVec 16) :
    decode c .enc (packEncReq cnt data).toNat = .ok (decodeEncReq (packEncReq cnt data)) := by
  rw [decode, if_pos (packEncReq cnt data).isLt, BitVec.ofNat_toNat, BitVec.setWidth_eq]

/-- The ports' DEC_REQ word, when it fits its channel, decodes to the request they name at their offset. -/
theorem decode_packDecReq {c : Config} {off : Nat} {cnt : BitVec 2} {chars : BitVec 24}
    (h : packDecReq off cnt chars < 2 ^ (26 + c.offsetW)) :
    decode c .dec (packDecReq off cnt chars) = .ok (decodeDecReq off (packDecReqLow cnt chars)) := by
  have hlow := (packDecReqLow cnt chars).isLt
  have hoff : packDecReq off cnt chars / 2 ^ 26 = off := by
    rw [packDecReq]
    omega
  have hbits : BitVec.ofNat 26 (packDecReq off cnt chars) = packDecReqLow cnt chars := by
    apply BitVec.eq_of_toNat_eq
    rw [BitVec.toNat_ofNat, packDecReq]
    omega
  rw [decode, if_pos h, hoff, hbits]

/-- The rows of a channel share one mask, so which of them a word matches depends on what that mask keeps of it. -/
theorem filter_matches_eq {ch : Channel} {m : Nat} (hm : ∀ r ∈ opcodeTable, r.channel = ch → r.mask = m) (w : Nat) :
    opcodeTable.filter (·.matches ch w) = opcodeTable.filter fun r => r.channel = ch && w &&& m == r.matchBits := by
  refine List.filter_congr fun r hr => ?_
  by_cases hch : r.channel = ch
  · rw [OpcodeRow.matches, hm r hr hch]
  · simp [OpcodeRow.matches, hch]

/-- An ENC_REQ word is an instance of the one row that its request's mnemonic names (R50). -/
theorem rows_of_packEncReq (cnt : BitVec 2) (data : BitVec 16) :
    (opcodeTable.filter (·.matches .enc (packEncReq cnt data).toNat)).map (·.mnemonic) =
      [(decodeEncReq (packEncReq cnt data)).mnemonic] := by
  rw [filter_matches_eq (m := 0x30000) (by decide), packEncReq_and_mask]
  rcases Machine.cnt_cases cnt with rfl | rfl | rfl | rfl
  · rw [decodeEncReq_pack_0]; rfl
  · rw [decodeEncReq_pack_1]; rfl
  · rw [decodeEncReq_pack_2]; rfl
  · rw [decodeEncReq_pack_3]; rfl

/-- A DEC_REQ word is an instance of the one row that its request's mnemonic names (R51). -/
theorem rows_of_packDecReq (off : Nat) (cnt : BitVec 2) (chars : BitVec 24) :
    (opcodeTable.filter (·.matches .dec (packDecReq off cnt chars))).map (·.mnemonic) =
      [(decodeDecReq off (packDecReqLow cnt chars)).mnemonic] := by
  rw [filter_matches_eq (m := 0x3000000) (by decide), packDecReq_and_mask]
  rcases Machine.cnt_cases cnt with rfl | rfl | rfl | rfl
  · rw [decodeDecReq_pack_0]; rfl
  · rw [decodeDecReq_pack_1]; rfl
  · rw [decodeDecReq_pack_2]; rfl
  · rw [decodeDecReq_pack_3]; rfl

end Sys2Proof

namespace Sys2Proof.Machine

open Sys2Proof

/-- Two requests of one channel with the same answer have the same effect. -/
theorem exec_congr {i j : Instr} {s : State} (hch : i.channel = j.channel) (henc : encAnswer i = encAnswer j)
    (hdec : decAnswer s.cfg.offsetW i = decAnswer s.cfg.offsetW j) : exec i s = exec j s := by
  obtain ⟨r, hr, hi, he⟩ | ⟨r, hr, hi, he⟩ := exec_cases i s <;>
    obtain ⟨r', hr', hj, he'⟩ | ⟨r', hr', hj, he'⟩ := exec_cases j s
  · have hrr : r = r' := Option.some.inj (hr.symm.trans (henc.trans hr'))
    rw [he, he', hrr]
  · simp [hi, hj] at hch
  · simp [hi, hj] at hch
  · have hrr : r = r' := Option.some.inj (hr.symm.trans (hdec.trans hr'))
    rw [he, he', hrr]

/-! ### The obligations of 30_encoding.md -/

/-- Settles O44: a word is the packed fields of its ports, of which the masks keep `cnt` alone. -/
theorem everyWordSelectsOneRow : Obligations.EveryWordSelectsOneRow := by
  intro c ch w hw
  cases ch with
  | enc =>
    obtain ⟨cnt, data, rfl⟩ := exists_packEncReq hw
    exact ⟨_, decode_packEncReq c cnt data, rows_of_packEncReq cnt data⟩
  | dec =>
    obtain ⟨off, cnt, chars, rfl⟩ := exists_packDecReq w
    exact ⟨_, decode_packDecReq hw, rows_of_packDecReq off cnt chars⟩

/-- Settles O40: no answer reads an ignored lane, and an operation's effect is its answer. -/
theorem ignoredLanesHaveNoEffect : Obligations.IgnoredLanesHaveNoEffect := by
  intro s x y z x' y' z' off
  exact ⟨exec_congr rfl rfl rfl, exec_congr rfl rfl rfl, exec_congr rfl rfl rfl, exec_congr rfl rfl rfl,
    exec_congr rfl rfl rfl, exec_congr rfl rfl rfl⟩

end Sys2Proof.Machine

/-! ## Family 40_encoder: what each encoder operation answers -/

namespace Sys2Proof.Machine

open Sys2Proof

/-- ENC answers no request of the decoder's channel. -/
theorem encAnswer_eq_none {i : Instr} (h : i.channel = .dec) : encAnswer i = none := by
  cases i with
  | enc0 | enc1 | enc2 | enc3 => cases h
  | dec0 | dec1 | dec2 | dec3 => rfl

/-- A request that ENC answers completes with that answer in ENC's register, in every state. -/
theorem exec_of_encAnswer {i : Instr} {r : EncRsp} (h : encAnswer i = some r) (s : State) :
    exec i s = .next (loadEncRsp r s) := by
  obtain ⟨r', hr', -, he⟩ | ⟨-, -, hch, -⟩ := exec_cases i s
  · rw [he, Option.some.inj (h.symm.trans hr')]
  · simp [encAnswer_eq_none hch] at h

/-! ### The obligations of 40_encoder.md -/

/-- Settles O29: the request that the sampled fields name, run by `exec_encReq`. -/
theorem encoderComputesENCODE : Obligations.EncoderComputesENCODE :=
  fun cnt data s => exec_encReq ⟨cnt, data⟩ s

/-- Settles O22: the word's `cnt` field is 0, and the answer is OK without characters. -/
theorem enc0AnswersEmpty : Obligations.Enc0AnswersEmpty :=
  fun b0 b1 s => ⟨packEncReq_and_mask 0 (lanes2 b0 b1), exec_of_encAnswer rfl s⟩

/-- Settles O23: the word's `cnt` field is 3, and the answer is ILLEGAL without characters. -/
theorem enc3AnswersIllegal : Obligations.Enc3AnswersIllegal :=
  fun b0 b1 s => ⟨packEncReq_and_mask 3 (lanes2 b0 b1), exec_of_encAnswer rfl s⟩

/-- Settles O24: the word's `cnt` field is 1, and the two digits are those of `v = b0`. -/
theorem enc1EncodesShortBlock : Obligations.Enc1EncodesShortBlock :=
  fun b0 b1 s => ⟨packEncReq_and_mask 1 (lanes2 b0 b1), digit0 (shortBytesValue b0), shortDigit1 b0, rfl, rfl,
    exec_of_encAnswer rfl s⟩

/-- Settles O25: the word's `cnt` field is 2, and the three digits are those of `v = b0*256 + b1`. -/
theorem enc2EncodesFullBlock : Obligations.Enc2EncodesFullBlock :=
  fun b0 b1 s => ⟨packEncReq_and_mask 2 (lanes2 b0 b1), digit0 (fullBytesValue b0 b1), digit1 (fullBytesValue b0 b1),
    fullDigit2 b0 b1, rfl, rfl, rfl, exec_of_encAnswer rfl s⟩

end Sys2Proof.Machine

/-! ## Family 41_decoder: what each decoder operation answers -/

namespace Sys2Proof.Machine

open Sys2Proof

/-- DEC answers no request of the encoder's channel. -/
theorem decAnswer_eq_none {i : Instr} (w : Nat) (h : i.channel = .enc) : decAnswer w i = none := by
  cases i with
  | enc0 | enc1 | enc2 | enc3 => rfl
  | dec0 | dec1 | dec2 | dec3 => cases h

/-- A request that DEC answers completes with that answer in DEC's register, in every state. -/
theorem exec_of_decAnswer {i : Instr} {r : DecRsp} {s : State} (h : decAnswer s.cfg.offsetW i = some r) :
    exec i s = .next (loadDecRsp r s) := by
  obtain ⟨-, -, hch, -⟩ | ⟨r', hr', -, he⟩ := exec_cases i s
  · simp [decAnswer_eq_none _ hch] at h
  · rw [he, Option.some.inj (h.symm.trans hr')]

section

variable {ch0 ch1 ch2 : Byte} {c0 c1 c2 : Digit} {w off : Nat}

/-! ### The answer to a short block, an equation per case (R69) -/

theorem decShortResponse_of_invalid_zero (h0 : decLut ch0 = none) :
    decShortResponse w ch0 ch1 off = invalidCharResponse w off 0 := by
  simp only [decShortResponse, h0]

theorem decShortResponse_of_invalid_one (h0 : decLut ch0 = some c0) (h1 : decLut ch1 = none) :
    decShortResponse w ch0 ch1 off = invalidCharResponse w off 1 := by
  simp only [decShortResponse, h0, h1]

theorem decShortResponse_of_digits (h0 : decLut ch0 = some c0) (h1 : decLut ch1 = some c1) :
    decShortResponse w ch0 ch1 off = ⟨0, 1, 2, BitVec.ofNat 16 (shortDigitsValue c0 c1 % 256), 0⟩ := by
  simp only [decShortResponse, h0, h1, lanes2_truncByte_zero]
  rfl

/-! ### The answer to a full block, an equation per case (R70) -/

theorem decFullResponse_of_invalid_zero (h0 : decLut ch0 = none) :
    decFullResponse w ch0 ch1 ch2 off = invalidCharResponse w off 0 := by
  simp only [decFullResponse, h0]

theorem decFullResponse_of_invalid_one (h0 : decLut ch0 = some c0) (h1 : decLut ch1 = none) :
    decFullResponse w ch0 ch1 ch2 off = invalidCharResponse w off 1 := by
  simp only [decFullResponse, h0, h1]

theorem decFullResponse_of_invalid_two (h0 : decLut ch0 = some c0) (h1 : decLut ch1 = some c1)
    (h2 : decLut ch2 = none) : decFullResponse w ch0 ch1 ch2 off = invalidCharResponse w off 2 := by
  simp only [decFullResponse, h0, h1, h2]

theorem decFullResponse_of_digits (h0 : decLut ch0 = some c0) (h1 : decLut ch1 = some c1)
    (h2 : decLut ch2 = some c2) : decFullResponse w ch0 ch1 ch2 off = decFullBlock w c0 c1 c2 off := by
  simp only [decFullResponse, h0, h1, h2]

theorem decFullBlock_of_overflow (hv : 65535 < fullDigitsValue c0 c1 c2) :
    decFullBlock w c0 c1 c2 off =
      ⟨3, 2, 3, BitVec.ofNat 16 (fullDigitsValue c0 c1 c2 % 256 * 256 + fullDigitsValue c0 c1 c2 / 256 % 256),
        (off + 3) % 2 ^ w⟩ :=
  (decFullBlock_eq w c0 c1 c2 off).trans (if_pos hv)

/-- A value that does not overflow has a high byte that needs no truncation (R66). -/
theorem decFullBlock_of_fits (hv : fullDigitsValue c0 c1 c2 ≤ 65535) :
    decFullBlock w c0 c1 c2 off =
      ⟨0, 2, 3, BitVec.ofNat 16 (fullDigitsValue c0 c1 c2 % 256 * 256 + fullDigitsValue c0 c1 c2 / 256), 0⟩ := by
  have hhigh : fullDigitsValue c0 c1 c2 / 256 % 256 = fullDigitsValue c0 c1 c2 / 256 := Nat.mod_eq_of_lt (by omega)
  rw [decFullBlock_eq, if_neg (Nat.not_lt.mpr hv), hhigh]

end

/-! ### The obligations of 41_decoder.md -/

/-- Settles O39: the request that the sampled fields name, run by `exec_decReq`. -/
theorem decoderComputesDECODE : Obligations.DecoderComputesDECODE :=
  fun cnt chars off s => exec_decReq ⟨cnt, chars, off⟩ s

/-- Settles O30: the word's `cnt` field is 0, and the answer is END with nothing consumed. -/
theorem dec0AnswersEnd : Obligations.Dec0AnswersEnd :=
  fun ch0 ch1 ch2 off _ => ⟨packDecReq_and_mask off 0 (lanes3 ch0 ch1 ch2), exec_of_decAnswer rfl⟩

/-- Settles O31: the word's `cnt` field is 1, and the answer, which reads no lane, is ERR_LONE at `off`. -/
theorem dec1AnswersLone : Obligations.Dec1AnswersLone :=
  fun ch0 ch1 ch2 off _ => ⟨packDecReq_and_mask off 1 (lanes3 ch0 ch1 ch2), exec_of_decAnswer rfl⟩

/-- Settles O32: the word's `cnt` field is 2, and the answer is `decShortResponse`, case by case. -/
theorem dec2DecodesShortBlock : Obligations.Dec2DecodesShortBlock :=
  fun ch0 ch1 ch2 off _ => ⟨packDecReq_and_mask off 2 (lanes3 ch0 ch1 ch2), _, exec_of_decAnswer rfl,
    decShortResponse_of_invalid_zero, fun _ => decShortResponse_of_invalid_one, fun _ _ => decShortResponse_of_digits⟩

/-- Settles O33: the word's `cnt` field is 3, and the answer is `decFullResponse`, case by case; three valid digits split
at the range check. -/
theorem dec3DecodesFullBlock : Obligations.Dec3DecodesFullBlock := by
  intro ch0 ch1 ch2 off s
  refine ⟨packDecReq_and_mask off 3 (lanes3 ch0 ch1 ch2), _, exec_of_decAnswer rfl, decFullResponse_of_invalid_zero,
    fun _ => decFullResponse_of_invalid_one, fun _ _ => decFullResponse_of_invalid_two, ?_⟩
  rintro c0 c1 c2 v h0 h1 h2 rfl
  rw [decFullResponse_of_digits h0 h1 h2]
  exact ⟨decFullBlock_of_overflow, decFullBlock_of_fits⟩

end Sys2Proof.Machine

/-! ## Family 60_exceptions: the decoder's status, offset and output, and the encoder's ILLEGAL -/

namespace Sys2Proof.Machine

open Sys2Proof

/-! ### The causes of a decoder response, said once (R76) -/

/-- `k` is the lowest of the lanes a request examines whose character maps to INVALID (R72). -/
structure IsLowestInvalid (cnt : BitVec 2) (chars : BitVec 24) (k : Nat) : Prop where
  examined : k < cnt.toNat
  invalid : decLut (lane k chars) = none
  lowest : ∀ j < k, decLut (lane j chars) ≠ none

theorem IsLowestInvalid.unique {cnt : BitVec 2} {chars : BitVec 24} {k l : Nat} (hk : IsLowestInvalid cnt chars k)
    (hl : IsLowestInvalid cnt chars l) : k = l := by
  rcases Nat.lt_trichotomy k l with hlt | heq | hgt
  · exact absurd hk.invalid (hl.lowest k hlt)
  · exact heq
  · exact absurd hl.invalid (hk.lowest l hgt)

/-- Why DEC gives a request of these fields the response that is the last argument: one constructor per cause, in the
order of R76, with the output (R71, R77) and the offset (R75) that go with it. -/
inductive DecodeCause (w : Nat) (cnt : BitVec 2) (chars : BitVec 24) (off : Nat) : DecRsp → Prop
  | cleanEnd (hcnt : cnt = 0) : DecodeCause w cnt chars off ⟨1, 0, 0, 0, 0⟩
  | lone (hcnt : cnt = 1) : DecodeCause w cnt chars off ⟨4, 0, 0, 0, off % 2 ^ w⟩
  | invalid (k : Nat) (hcnt : 2 ≤ cnt.toNat) (hk : IsLowestInvalid cnt chars k) :
      DecodeCause w cnt chars off ⟨2, 0, 0, 0, (off + k) % 2 ^ w⟩
  | overflow (c0 c1 c2 : Digit) (hcnt : cnt = 3) (h0 : decLut (lane 0 chars) = some c0)
      (h1 : decLut (lane 1 chars) = some c1) (h2 : decLut (lane 2 chars) = some c2)
      (hv : 65535 < fullDigitsValue c0 c1 c2) :
      DecodeCause w cnt chars off ⟨3, 2, 3, fullBlockBytes (fullDigitsValue c0 c1 c2), (off + 3) % 2 ^ w⟩
  | short (c0 c1 : Digit) (hcnt : cnt = 2) (h0 : decLut (lane 0 chars) = some c0)
      (h1 : decLut (lane 1 chars) = some c1) :
      DecodeCause w cnt chars off ⟨0, 1, 2, lanes2 (truncByte (shortDigitsValue c0 c1)) 0, 0⟩
  | full (c0 c1 c2 : Digit) (hcnt : cnt = 3) (h0 : decLut (lane 0 chars) = some c0)
      (h1 : decLut (lane 1 chars) = some c1) (h2 : decLut (lane 2 chars) = some c2)
      (hv : fullDigitsValue c0 c1 c2 ≤ 65535) :
      DecodeCause w cnt chars off ⟨0, 2, 3, fullBlockBytes (fullDigitsValue c0 c1 c2), 0⟩

theorem lanes_valid_of_two_digits {chars : BitVec 24} {c0 c1 : Digit} (h0 : decLut (lane 0 chars) = some c0)
    (h1 : decLut (lane 1 chars) = some c1) : ∀ k < 2, decLut (lane k chars) ≠ none := by
  intro k hk
  interval_cases k
  · simp [h0]
  · simp [h1]

theorem lanes_valid_of_three_digits {chars : BitVec 24} {c0 c1 c2 : Digit} (h0 : decLut (lane 0 chars) = some c0)
    (h1 : decLut (lane 1 chars) = some c1) (h2 : decLut (lane 2 chars) = some c2) :
    ∀ k < 3, decLut (lane k chars) ≠ none := by
  intro k hk
  interval_cases k
  · simp [h0]
  · simp [h1]
  · simp [h2]

section

variable (w : Nat) (chars : BitVec 24) (off : Nat)

theorem decodeCause_decShortResponse :
    DecodeCause w 2 chars off (decShortResponse w (lane 0 chars) (lane 1 chars) off) := by
  obtain ⟨h0, hr⟩ | ⟨c0, h0, h1, hr⟩ | ⟨c0, c1, h0, h1, hr⟩ :=
    decShortResponse_cases w (lane 0 chars) (lane 1 chars) off <;> rw [hr]
  · exact .invalid 0 (by decide) ⟨by decide, h0, by simp⟩
  · exact .invalid 1 (by decide) ⟨by decide, h1, by simp [h0]⟩
  · exact .short c0 c1 rfl h0 h1

theorem decodeCause_decFullResponse :
    DecodeCause w 3 chars off (decFullResponse w (lane 0 chars) (lane 1 chars) (lane 2 chars) off) := by
  obtain ⟨h0, hr⟩ | ⟨c0, h0, h1, hr⟩ | ⟨c0, c1, h0, h1, h2, hr⟩ | ⟨c0, c1, c2, h0, h1, h2, hr⟩ :=
    decFullResponse_cases w (lane 0 chars) (lane 1 chars) (lane 2 chars) off <;> rw [hr]
  · exact .invalid 0 (by decide) ⟨by decide, h0, by simp⟩
  · exact .invalid 1 (by decide) ⟨by decide, h1, by simp [h0]⟩
  · exact .invalid 2 (by decide) ⟨by decide, h2, lanes_valid_of_two_digits h0 h1⟩
  · obtain ⟨hv, hr⟩ | ⟨hv, hr⟩ := decFullBlock_cases w c0 c1 c2 off <;> rw [hr]
    · exact .overflow c0 c1 c2 rfl h0 h1 h2 hv
    · exact .full c0 c1 c2 rfl h0 h1 h2 hv

end

/-- The inversion lemma of a decoder request: it completes with a response of one of the six causes. -/
theorem exec_decReq_cause (cnt : BitVec 2) (chars : BitVec 24) (off : Nat) (s : State) :
    ∃ r, DecodeCause s.cfg.offsetW cnt chars off r ∧
      exec (decodeDecReq off (packDecReqLow cnt chars)) s = .next (loadDecRsp r s) := by
  rcases cnt_cases cnt with rfl | rfl | rfl | rfl
  · exact ⟨_, .cleanEnd rfl, by rw [decodeDecReq_pack_0]; exact exec_of_decAnswer rfl⟩
  · exact ⟨_, .lone rfl, by rw [decodeDecReq_pack_1]; exact exec_of_decAnswer rfl⟩
  · exact ⟨_, decodeCause_decShortResponse _ chars off, by rw [decodeDecReq_pack_2]; exact exec_of_decAnswer rfl⟩
  · exact ⟨_, decodeCause_decFullResponse _ chars off, by rw [decodeDecReq_pack_3]; exact exec_of_decAnswer rfl⟩

/-- Every decoder operation is named by some fields of its channel's ports (R51). -/
theorem exists_fields_of_channel_dec {i : Instr} (h : i.channel = .dec) :
    ∃ cnt chars off, i = decodeDecReq off (packDecReqLow cnt chars) := by
  cases i with
  | enc0 | enc1 | enc2 | enc3 => cases h
  | dec0 ch0 ch1 ch2 off =>
    exact ⟨0, lanes3 ch0 ch1 ch2, off, by
      rw [decodeDecReq_pack_0, lane_zero_lanes3, lane_one_lanes3, lane_two_lanes3]⟩
  | dec1 ch0 ch1 ch2 off =>
    exact ⟨1, lanes3 ch0 ch1 ch2, off, by
      rw [decodeDecReq_pack_1, lane_zero_lanes3, lane_one_lanes3, lane_two_lanes3]⟩
  | dec2 ch0 ch1 ch2 off =>
    exact ⟨2, lanes3 ch0 ch1 ch2, off, by
      rw [decodeDecReq_pack_2, lane_zero_lanes3, lane_one_lanes3, lane_two_lanes3]⟩
  | dec3 ch0 ch1 ch2 off =>
    exact ⟨3, lanes3 ch0 ch1 ch2, off, by
      rw [decodeDecReq_pack_3, lane_zero_lanes3, lane_one_lanes3, lane_two_lanes3]⟩

/-- The low lane of a full block's bytes is the high byte of its value, truncated (R71). -/
theorem toNat_lane_zero_fullBlockBytes (v : Nat) : (lane 0 (fullBlockBytes v)).toNat = v / 256 % 256 := by
  rw [fullBlockBytes, lane_zero_lanes2, truncByte, BitVec.toNat_ofNat]

theorem toNat_lane_one_fullBlockBytes (v : Nat) : (lane 1 (fullBlockBytes v)).toNat = v % 256 := by
  rw [fullBlockBytes, lane_one_lanes2, truncByte, BitVec.toNat_ofNat]

/-! ### The encoder's status (R80) -/

theorem encAnswer_status_eq_one_iff {i : Instr} {r : EncRsp} (h : encAnswer i = some r) :
    r.status = 1 ↔ ∃ b0 b1, i = .enc3 b0 b1 := by
  cases i with
  | dec0 | dec1 | dec2 | dec3 => cases h
  | enc0 | enc1 | enc2 =>
    cases h
    exact iff_of_false (show EncStatus.ok.code ≠ 1 by decide) (by simp)
  | enc3 b0 b1 =>
    cases h
    exact iff_of_true rfl ⟨b0, b1, rfl⟩

/-! ### The obligations of 60_exceptions.md -/

/-- Settles O35: each cause carries its status and its offset. -/
theorem errorOffsetPerCause : Obligations.ErrorOffsetPerCause := by
  intro cnt chars off s
  obtain ⟨r, hcause, he⟩ := exec_decReq_cause cnt chars off s
  refine ⟨_, he, ?_⟩
  cases hcause with
  | invalid k _ hk => exact ⟨fun _ => ⟨k, hk.examined, hk.invalid, hk.lowest, rfl⟩, by simp⟩
  | cleanEnd | lone | overflow | short | full => simp

/-- Settles O36: `cnt` and the lanes decide the cause; of the lowest invalid lane there is only one, and three digits
have one value. -/
theorem statusPriority : Obligations.StatusPriority := by
  intro cnt chars off s
  obtain ⟨r, hcause, he⟩ := exec_decReq_cause cnt chars off s
  refine ⟨_, he, ?_⟩
  cases hcause with
  | cleanEnd hcnt | lone hcnt => simp [hcnt]
  | invalid k hcnt hk =>
    refine ⟨by rintro rfl; simp at hcnt, by rintro rfl; simp at hcnt, fun _ l hl hinv hlow => ?_, fun _ hvalid => ?_⟩
    · rw [hk.unique ⟨hl, hinv, hlow⟩]
      exact ⟨rfl, rfl⟩
    · exact absurd hk.invalid (hvalid k hk.examined)
  | overflow c0 c1 c2 hcnt h0 h1 h2 hv =>
    subst hcnt
    refine ⟨by simp, by simp, fun _ k hk hinv => absurd hinv (lanes_valid_of_three_digits h0 h1 h2 k hk), fun _ _ => ?_⟩
    exact ⟨iff_of_true rfl ⟨rfl, c0, c1, c2, h0, h1, h2, hv⟩, fun h => absurd rfl h⟩
  | short c0 c1 hcnt h0 h1 =>
    subst hcnt
    exact ⟨by simp, by simp, fun _ k hk hinv => absurd hinv (lanes_valid_of_two_digits h0 h1 k hk), by simp⟩
  | full c0 c1 c2 hcnt h0 h1 h2 hv =>
    subst hcnt
    refine ⟨by simp, by simp, fun _ k hk hinv => absurd hinv (lanes_valid_of_three_digits h0 h1 h2 k hk), fun _ _ => ?_⟩
    simpa [h0, h1, h2, fullDigitsValue] using hv

/-- Settles O37: each cause carries its output; only a full block of three digits overflows. -/
theorem outputUnderError : Obligations.OutputUnderError := by
  intro i s hch
  obtain ⟨cnt, chars, off, rfl⟩ := exists_fields_of_channel_dec hch
  obtain ⟨r, hcause, he⟩ := exec_decReq_cause cnt chars off s
  refine ⟨_, he, ?_⟩
  cases hcause with
  | overflow c0 c1 c2 hcnt h0 h1 h2 hv =>
    subst hcnt
    exact ⟨by simp, fun _ => ⟨rfl, rfl, _, _, _, _, c0, c1, c2, _, decodeDecReq_pack_3 off chars, h0, h1, h2, rfl, hv,
      toNat_lane_zero_fullBlockBytes _, toNat_lane_one_fullBlockBytes _⟩⟩
  | cleanEnd | lone | invalid | short | full => simp

/-- Settles O18: the answer to a request is a function of the request and the offset width. -/
theorem noStickyError : Obligations.NoStickyError := by
  intro i s s' hcfg
  obtain ⟨r, hr, hch, he⟩ | ⟨r, hr, hch, he⟩ := exec_cases i s
  · exact ⟨_, _, he, exec_of_encAnswer hr s', fun _ => ⟨rfl, rfl, rfl⟩, by simp [hch]⟩
  · exact ⟨_, _, he, exec_of_decAnswer (hcfg ▸ hr), by simp [hch], fun _ => ⟨rfl, rfl, rfl⟩⟩

/-- Settles O27: of the encoder's answers only that to ENC3 is ILLEGAL, and the one status bit has no third value. -/
theorem illegalOnlyForEnc3 : Obligations.IllegalOnlyForEnc3 := by
  intro i s hch
  obtain ⟨r, hr, -, he⟩ | ⟨-, -, hdec, -⟩ := exec_cases i s
  · have hiff := encAnswer_status_eq_one_iff hr
    refine ⟨_, he, hiff, ?_⟩
    rw [← hiff, loadEncRsp_encRsp]
    rcases BitVec.eq_zero_or_eq_one r.status with h | h <;> simp [h]
  · simp [hch] at hdec

end Sys2Proof.Machine

/-! ## Family 70_reset_and_hazards: the reset edge, and the host that is refused -/

namespace Sys2Proof.Machine

open Sys2Proof

/-! ### No transfer in reset (R16, R17, R86) -/

theorem encInReady_of_rst (s : State) {p : PortInputs} (h : p.rst = true) : encInReady s p = false := by
  rw [encInReady, h, Bool.not_true, Bool.false_and]

theorem decInReady_of_rst (s : State) {p : PortInputs} (h : p.rst = true) : decInReady s p = false := by
  rw [decInReady, h, Bool.not_true, Bool.false_and]

theorem encRequest_of_rst (s : State) {p : PortInputs} (h : p.rst = true) : encRequest s p = none :=
  encRequest_of_no_transfer (by simp [encInReady_of_rst s h])

theorem decRequest_of_rst (s : State) {p : PortInputs} (h : p.rst = true) : decRequest s p = none :=
  decRequest_of_no_transfer (by simp [decInReady_of_rst s h])

theorem encResponseTaken_of_rst (s : State) {p : PortInputs} (h : p.rst = true) : encResponseTaken s p = none :=
  if_neg (by simp [h])

theorem decResponseTaken_of_rst (s : State) {p : PortInputs} (h : p.rst = true) : decResponseTaken s p = none :=
  if_neg (by simp [h])

/-! ### What the host has settled for the current cycle -/

theorem currentCycle_of_pins_cons {s : State} {c : HostCycle} {rest : List HostCycle} (h : s.pins = c :: rest) :
    currentCycle s = c := by
  simp only [currentCycle, h]

/-! ### The obligations of 70_reset_and_hazards.md -/

/-- Settles O2: the step is the reset edge of `step_rst`, and in reset no unit is ready and no response is taken. -/
theorem resetEdgeClearsOnlyValidBits : Obligations.ResetEdgeClearsOnlyValidBits :=
  fun s _ hcycle hrst => ⟨step_rst hcycle hrst, encRequest_of_rst s hrst, decRequest_of_rst s hrst,
    encResponseTaken_of_rst s hrst, decResponseTaken_of_rst s hrst, encInReady_of_rst s hrst, decInReady_of_rst s hrst⟩

/-- Settles O14: the current cycle is the loop that heads the host's list, and `step_loop` refuses it. -/
theorem combinationalLoopIsRefused : Obligations.CombinationalLoopIsRefused :=
  fun _ _ _ hpins => step_loop (currentCycle_of_pins_cons hpins)

end Sys2Proof.Machine

/-! ## Family other: the request and response words, both ways -/

namespace Sys2Proof

/-! ### A vector is its lanes, and a request is the fields of its channel's ports -/

theorem lanes2_lane (v : BitVec 16) : lanes2 (lane 0 v) (lane 1 v) = v := by
  apply BitVec.eq_of_toNat_eq
  have hv := v.isLt
  simp only [toNat_lanes2, toNat_lane]
  omega

theorem lanes3_lane (v : BitVec 24) : lanes3 (lane 0 v) (lane 1 v) (lane 2 v) = v := by
  apply BitVec.eq_of_toNat_eq
  have hv := v.isLt
  simp only [toNat_lanes3, toNat_lane]
  omega

/-- Every encoder operation is named by some fields of its channel's ports (R50). -/
theorem exists_fields_of_channel_enc {i : Instr} (h : i.channel = .enc) :
    ∃ cnt data, i = decodeEncReq (packEncReq cnt data) := by
  cases i with
  | dec0 | dec1 | dec2 | dec3 => cases h
  | enc0 b0 b1 => exact ⟨0, lanes2 b0 b1, by rw [decodeEncReq_pack_0, lane_zero_lanes2, lane_one_lanes2]⟩
  | enc1 b0 b1 => exact ⟨1, lanes2 b0 b1, by rw [decodeEncReq_pack_1, lane_zero_lanes2, lane_one_lanes2]⟩
  | enc2 b0 b1 => exact ⟨2, lanes2 b0 b1, by rw [decodeEncReq_pack_2, lane_zero_lanes2, lane_one_lanes2]⟩
  | enc3 b0 b1 => exact ⟨3, lanes2 b0 b1, by rw [decodeEncReq_pack_3, lane_zero_lanes2, lane_one_lanes2]⟩

/-- The word of the request that ENC's ports name is the packed ports (R46). -/
theorem encode_decodeEncReq (cnt : BitVec 2) (data : BitVec 16) :
    encode (decodeEncReq (packEncReq cnt data)) = (packEncReq cnt data).toNat := by
  rcases Machine.cnt_cases cnt with rfl | rfl | rfl | rfl
  · rw [decodeEncReq_pack_0, encode, lanes2_lane]
  · rw [decodeEncReq_pack_1, encode, lanes2_lane]
  · rw [decodeEncReq_pack_2, encode, lanes2_lane]
  · rw [decodeEncReq_pack_3, encode, lanes2_lane]

/-- The word of the request that DEC's ports name is the packed ports (R48). -/
theorem encode_decodeDecReq (off : Nat) (cnt : BitVec 2) (chars : BitVec 24) :
    encode (decodeDecReq off (packDecReqLow cnt chars)) = packDecReq off cnt chars := by
  rcases Machine.cnt_cases cnt with rfl | rfl | rfl | rfl
  · rw [decodeDecReq_pack_0, encode, lanes3_lane]
  · rw [decodeDecReq_pack_1, encode, lanes3_lane]
  · rw [decodeDecReq_pack_2, encode, lanes3_lane]
  · rw [decodeDecReq_pack_3, encode, lanes3_lane]

/-! ### Which requests are well formed -/

theorem wf_of_channel_enc (c : Config) {i : Instr} (h : i.channel = .enc) : i.wf c = true := by
  cases i with
  | enc0 | enc1 | enc2 | enc3 => rfl
  | dec0 | dec1 | dec2 | dec3 => cases h

theorem wf_decodeDecReq (c : Config) (off : Nat) (w : BitVec 26) : (decodeDecReq off w).wf c = offsetFits c off := by
  unfold decodeDecReq
  split <;> rfl

theorem offsetFits_iff (c : Config) (off : Nat) : offsetFits c off = true ↔ off < 2 ^ c.offsetW := decide_eq_true_iff

/-- A DEC_REQ word fits its channel exactly when its offset fits the offset's wires (R48). -/
theorem packDecReq_fits_iff (c : Config) (off : Nat) (cnt : BitVec 2) (chars : BitVec 24) :
    packDecReq off cnt chars < 2 ^ (26 + c.offsetW) ↔ offsetFits c off = true := by
  refine ⟨fun h => ?_, Laws.EncodeFits.packDecReq_fits c off cnt chars⟩
  have hmul : off * 2 ^ 26 < 2 ^ c.offsetW * 2 ^ 26 :=
    calc off * 2 ^ 26 ≤ packDecReq off cnt chars := Nat.le_add_right _ _
      _ < 2 ^ (26 + c.offsetW) := h
      _ = 2 ^ c.offsetW * 2 ^ 26 := by rw [pow_add, Nat.mul_comm]
  exact (offsetFits_iff c off).mpr (Nat.lt_of_mul_lt_mul_right hmul)

end Sys2Proof

namespace Sys2Proof.Machine

open Sys2Proof

/-! ### The response words as numbers (R47, R49) -/

theorem EncRsp.toNat_word (r : EncRsp) :
    r.word.toNat = r.status.toNat * 2 ^ 26 + r.cnt.toNat * 2 ^ 24 + r.chars.toNat := by
  rw [EncRsp.word, toNat_append_eq, toNat_append_eq]
  omega

theorem DecRsp.toNat_wordLow (r : DecRsp) : r.wordLow.toNat =
    r.status.toNat * 2 ^ 20 + r.nbytes.toNat * 2 ^ 18 + r.consumed.toNat * 2 ^ 16 + r.data.toNat := by
  rw [DecRsp.wordLow, toNat_append_eq, toNat_append_eq, toNat_append_eq]
  omega

/-- A field read from a vector is the value its place in the vector's number holds. -/
theorem extractLsb'_eq_of_toNat {n start len : Nat} {v : BitVec n} {x : BitVec len}
    (h : v.toNat / 2 ^ start % 2 ^ len = x.toNat) : v.extractLsb' start len = x :=
  BitVec.eq_of_toNat_eq ((toNat_extract_eq start len v).trans h)

theorem EncRsp.ofWord_word (r : EncRsp) : EncRsp.ofWord r.word = r := by
  have hword := r.toNat_word
  have hcnt := r.cnt.isLt
  have hchars := r.chars.isLt
  have h0 : r.word.extractLsb' 26 1 = r.status := extractLsb'_eq_of_toNat (by omega)
  have h1 : r.word.extractLsb' 24 2 = r.cnt := extractLsb'_eq_of_toNat (by omega)
  have h2 : r.word.extractLsb' 0 24 = r.chars := extractLsb'_eq_of_toNat (by omega)
  rw [EncRsp.ofWord, h0, h1, h2]

/-- The fields of the low word read back (R49). -/
theorem DecRsp.wordLow_fields (r : DecRsp) :
    r.wordLow.extractLsb' 20 3 = r.status ∧ r.wordLow.extractLsb' 18 2 = r.nbytes ∧
      r.wordLow.extractLsb' 16 2 = r.consumed ∧ r.wordLow.extractLsb' 0 16 = r.data := by
  have hword := r.toNat_wordLow
  have hnbytes := r.nbytes.isLt
  have hconsumed := r.consumed.isLt
  have hdata := r.data.isLt
  exact ⟨extractLsb'_eq_of_toNat (by omega), extractLsb'_eq_of_toNat (by omega), extractLsb'_eq_of_toNat (by omega),
    extractLsb'_eq_of_toNat (by omega)⟩

theorem DecRsp.ofWord_word (r : DecRsp) : DecRsp.ofWord r.word = r := by
  have hlt := r.wordLow.isLt
  have hlow : BitVec.ofNat 23 r.word = r.wordLow := by
    apply BitVec.eq_of_toNat_eq
    rw [BitVec.toNat_ofNat, DecRsp.word]
    omega
  have herroff : r.word / 2 ^ 23 = r.erroff := by
    rw [DecRsp.word]
    omega
  obtain ⟨hstatus, hnbytes, hconsumed, hdata⟩ := r.wordLow_fields
  simp only [DecRsp.ofWord, hlow, hstatus, hnbytes, hconsumed, hdata, herroff]

/-! ### The obligations about the words -/

/-- Settles O45: each channel's decoder checks the width first. -/
theorem tooWideWordsAreRejected : Obligations.TooWideWordsAreRejected :=
  ⟨fun _ _ hw => if_neg (Nat.not_lt.mpr hw), fun _ _ hw => if_neg (Nat.not_lt.mpr hw)⟩

/-- Settles O42: a request is what its ports name, so its word is the packed ports, which decode to what they name. -/
theorem decodeOfEncodeIsIdentity : Obligations.DecodeOfEncodeIsIdentity := by
  intro c i hwf
  cases hch : i.channel with
  | enc =>
    obtain ⟨cnt, data, rfl⟩ := exists_fields_of_channel_enc hch
    rw [encode_decodeEncReq]
    exact decode_packEncReq c cnt data
  | dec =>
    obtain ⟨cnt, chars, off, rfl⟩ := exists_fields_of_channel_dec hch
    rw [wf_decodeDecReq] at hwf
    rw [encode_decodeDecReq]
    exact decode_packDecReq ((packDecReq_fits_iff c off cnt chars).mpr hwf)

/-- Settles O43: an accepted word is the packed ports of its channel, and its request is what they name. -/
theorem encodeOfDecodeIsIdentity : Obligations.EncodeOfDecodeIsIdentity := by
  intro c ch w i hdec
  cases ch with
  | enc =>
    have hw : w < 2 ^ 18 := by
      by_contra hw
      simp [tooWideWordsAreRejected.1 c w (Nat.not_lt.mp hw)] at hdec
    obtain ⟨cnt, data, rfl⟩ := exists_packEncReq hw
    obtain rfl : decodeEncReq (packEncReq cnt data) = i :=
      Except.ok.inj ((decode_packEncReq c cnt data).symm.trans hdec)
    exact ⟨encode_decodeEncReq cnt data, decodeEncReq_channel _, wf_of_channel_enc c (decodeEncReq_channel _)⟩
  | dec =>
    have hw : w < 2 ^ (26 + c.offsetW) := by
      by_contra hw
      simp [tooWideWordsAreRejected.2 c w (Nat.not_lt.mp hw)] at hdec
    obtain ⟨off, cnt, chars, rfl⟩ := exists_packDecReq w
    obtain rfl : decodeDecReq off (packDecReqLow cnt chars) = i :=
      Except.ok.inj ((decode_packDecReq hw).symm.trans hdec)
    exact ⟨encode_decodeDecReq off cnt chars, decodeDecReq_channel off _,
      (wf_decodeDecReq c off _).trans ((packDecReq_fits_iff c off cnt chars).mp hw)⟩

/-- Settles O46: the four numbers are the words of these well-formed requests, so O42 decodes them. -/
theorem knownWordsDecode : Obligations.KnownWordsDecode :=
  ⟨decodeOfEncodeIsIdentity Config.suggested (.enc2 0x41 0x42) rfl,
    decodeOfEncodeIsIdentity Config.suggested (.enc1 0x35 0x00) rfl,
    decodeOfEncodeIsIdentity Config.suggested (.dec3 0x46 0x61 0x57 100) rfl,
    decodeOfEncodeIsIdentity Config.suggested (.dec0 0x00 0x00 0x00 11) rfl⟩

/-- Settles O47: the fields of each word as a number, and the fields read back from it. -/
theorem responseWordsKeepEveryField : Obligations.ResponseWordsKeepEveryField := by
  refine ⟨fun r => ⟨r.toNat_word, r.ofWord_word⟩, fun r => ⟨?_, r.ofWord_word⟩⟩
  rw [DecRsp.word, r.toNat_wordLow]
  omega

end Sys2Proof.Machine

/-! ## Family other: a cycle as a function of the state and the inputs -/

namespace Sys2Proof.Machine

open Sys2Proof Sys2Proof.Safety

/-! ### Each unit's registers after an edge, reset included (R18, R86) -/

/-- ENC's valid bit and payload after an edge: a sampled request is answered; without one the payload stays, and so does
the valid bit unless the response is taken or the edge is a reset edge. -/
def encNext (s : State) (p : PortInputs) : Bool × EncRsp :=
  match encRequest s p with
  | some r => (true, refEncode r.cnt r.data)
  | none => (s.encRspValid && !p.rst && !p.encRspReady, s.encRsp)

/-- DEC's valid bit and payload after an edge. -/
def decNext (s : State) (p : PortInputs) : Bool × DecRsp :=
  match decRequest s p with
  | some r => (true, refDecode s.cfg.offsetW r.cnt r.chars r.off)
  | none => (s.decRspValid && !p.rst && !p.decRspReady, s.decRsp)

/-- The state after a cycle with driven inputs. -/
def afterEdge (s : State) (p : PortInputs) : State where
  cfg := s.cfg
  encRspValid := (encNext s p).1
  encRsp := (encNext s p).2
  decRspValid := (decNext s p).1
  decRsp := (decNext s p).2
  pins := s.pins.tail
  cycle := s.cycle + 1

@[simp] theorem afterEdge_cfg (s : State) (p : PortInputs) : (afterEdge s p).cfg = s.cfg := rfl
@[simp] theorem afterEdge_encRspValid (s : State) (p : PortInputs) : (afterEdge s p).encRspValid = (encNext s p).1 :=
  rfl
@[simp] theorem afterEdge_encRsp (s : State) (p : PortInputs) : (afterEdge s p).encRsp = (encNext s p).2 := rfl
@[simp] theorem afterEdge_decRspValid (s : State) (p : PortInputs) : (afterEdge s p).decRspValid = (decNext s p).1 :=
  rfl
@[simp] theorem afterEdge_decRsp (s : State) (p : PortInputs) : (afterEdge s p).decRsp = (decNext s p).2 := rfl

theorem encNext_of_request {s : State} {p : PortInputs} {r : EncReq} (h : encRequest s p = some r) :
    encNext s p = (true, refEncode r.cnt r.data) := by simp only [encNext, h]

theorem encNext_of_no_request {s : State} {p : PortInputs} (h : encRequest s p = none) :
    encNext s p = (s.encRspValid && !p.rst && !p.encRspReady, s.encRsp) := by simp only [encNext, h]

theorem decNext_of_request {s : State} {p : PortInputs} {r : DecReq} (h : decRequest s p = some r) :
    decNext s p = (true, refDecode s.cfg.offsetW r.cnt r.chars r.off) := by simp only [decNext, h]

theorem decNext_of_no_request {s : State} {p : PortInputs} (h : decRequest s p = none) :
    decNext s p = (s.decRspValid && !p.rst && !p.decRspReady, s.decRsp) := by simp only [decNext, h]

/-- `encNext` is the case distinction of R18 and R86. -/
theorem encNext_eq_ite (s : State) (p : PortInputs) : encNext s p =
    if p.rst then (false, s.encRsp)
    else if p.encInValid && encInReady s p then (true, refEncode p.encInCnt p.encInData)
    else if s.encRspValid && p.encRspReady then (false, s.encRsp)
    else (s.encRspValid, s.encRsp) := by
  split_ifs with hrst hreq htaken
  · simp [encNext_of_no_request (encRequest_of_rst s hrst), hrst]
  · rw [encNext_of_request (encRequest_of_transfer hreq)]
  · have hr : p.encRspReady = true := (Bool.and_eq_true_iff.mp htaken).2
    simp [encNext_of_no_request (encRequest_of_no_transfer hreq), hr]
  · rw [encNext_of_no_request (encRequest_of_no_transfer hreq)]
    cases hv : s.encRspValid with
    | false => rfl
    | true =>
      have hr : p.encRspReady = false := by simpa [hv] using htaken
      simp [hrst, hr]

/-- `decNext` is the case distinction of R18 and R86. -/
theorem decNext_eq_ite (s : State) (p : PortInputs) : decNext s p =
    if p.rst then (false, s.decRsp)
    else if p.decInValid && decInReady s p then
      (true, refDecode s.cfg.offsetW p.decInCnt p.decInChars (p.decInOff % 2 ^ s.cfg.offsetW))
    else if s.decRspValid && p.decRspReady then (false, s.decRsp)
    else (s.decRspValid, s.decRsp) := by
  split_ifs with hrst hreq htaken
  · simp [decNext_of_no_request (decRequest_of_rst s hrst), hrst]
  · rw [decNext_of_request (decRequest_of_transfer hreq)]
  · have hr : p.decRspReady = true := (Bool.and_eq_true_iff.mp htaken).2
    simp [decNext_of_no_request (decRequest_of_no_transfer hreq), hr]
  · rw [decNext_of_no_request (decRequest_of_no_transfer hreq)]
    cases hv : s.decRspValid with
    | false => rfl
    | true =>
      have hr : p.decRspReady = false := by simpa [hv] using htaken
      simp [hrst, hr]

/-- What a step does, said once: a cycle with driven inputs ends in `afterEdge`. -/
theorem step_eq_afterEdge {s : State} {p : PortInputs} (h : currentCycle s = .driven p) :
    step s = .next (afterEdge s p) := by
  obtain ⟨t, hstep, henc, hdec, hcfg, hpins, hcycle, -, -⟩ := cycleUpdatesBothUnits s p h
  rw [← encNext_eq_ite] at henc
  rw [← decNext_eq_ite] at hdec
  rw [hstep, afterEdge, ← henc, ← hdec, ← hcfg, ← hpins, ← hcycle]

/-- The inversion lemma of `step`: a step that has a next state is a cycle with driven inputs. -/
theorem step_next_cases {s t : State} (h : step s = .next t) :
    ∃ p, currentCycle s = .driven p ∧ t = afterEdge s p := by
  cases hcycle : currentCycle s with
  | loop port => simp [step_loop hcycle] at h
  | driven p =>
    rw [step_eq_afterEdge hcycle] at h
    exact ⟨p, rfl, (Host.Outcome.next.inj h).symm⟩

theorem step_next_of_driven {s t : State} {p : PortInputs} (hcycle : currentCycle s = .driven p)
    (h : step s = .next t) : t = afterEdge s p :=
  (Host.Outcome.next.inj ((step_eq_afterEdge hcycle).symm.trans h)).symm

/-- A reset edge leaves both units empty, with their payloads (R86, R87). -/
theorem encNext_of_rst (s : State) {p : PortInputs} (h : p.rst = true) : encNext s p = (false, s.encRsp) := by
  simp [encNext_of_no_request (encRequest_of_rst s h), h]

theorem decNext_of_rst (s : State) {p : PortInputs} (h : p.rst = true) : decNext s p = (false, s.decRsp) := by
  simp [decNext_of_no_request (decRequest_of_rst s h), h]

/-! ### The invariant: the values of ENCODE and DECODE are legal (R21, R74, R75, R77) -/

theorem inAlphabet_encLut (d : Digit) : inAlphabet (encLut d) = true := by
  revert d
  decide

theorem encLegal_encAnswer {i : Instr} {r : EncRsp} (h : encAnswer i = some r) : encLegal r = true := by
  cases i with
  | dec0 | dec1 | dec2 | dec3 => cases h
  | enc0 | enc3 =>
    cases h
    rfl
  | enc1 b0 b1 =>
    cases h
    simp [encLegal, encShortResponse, encResponse, EncStatus.code, lane_zero_lanes3, lane_one_lanes3, lane_two_lanes3,
      inAlphabet_encLut]
  | enc2 b0 b1 =>
    cases h
    simp [encLegal, encFullResponse, encResponse, EncStatus.code, lane_zero_lanes3, lane_one_lanes3, lane_two_lanes3,
      inAlphabet_encLut]

/-- ENCODE of any fields is the answer to the request they name. -/
theorem encAnswer_encReq (r : EncReq) : encAnswer r.instr = some (refEncode r.cnt r.data) := by
  obtain ⟨r', hr', -, he⟩ | ⟨-, -, hch, -⟩ := exec_cases r.instr State.reset
  · have hload := Host.Outcome.next.inj ((exec_encReq r State.reset).symm.trans he)
    rw [hr', show r' = (loadEncRsp r' State.reset).encRsp from rfl, ← hload, loadEncRsp_encRsp]
  · simp [EncReq.instr, decodeEncReq_channel] at hch

theorem encLegal_refEncode (cnt : BitVec 2) (data : BitVec 16) : encLegal (refEncode cnt data) = true :=
  encLegal_encAnswer (encAnswer_encReq ⟨cnt, data⟩)

/-- DECODE of any fields has one of the six causes (R76). -/
theorem decodeCause_refDecode (w : Nat) (cnt : BitVec 2) (chars : BitVec 24) (off : Nat) :
    DecodeCause w cnt chars off (refDecode w cnt chars off) := by
  rcases cnt_cases cnt with rfl | rfl | rfl | rfl
  · exact .cleanEnd rfl
  · exact .lone rfl
  · exact decShortResponse_eq_refDecode w chars off ▸ decodeCause_decShortResponse w chars off
  · exact decFullResponse_eq_refDecode w chars off ▸ decodeCause_decFullResponse w chars off

theorem DecodeCause.decLegal {w off : Nat} {cnt : BitVec 2} {chars : BitVec 24} {r : DecRsp}
    (h : DecodeCause w cnt chars off r) : decLegal r = true := by
  cases h with
  | cleanEnd | lone | invalid | overflow | full => simp [Safety.decLegal]
  | short => simp [Safety.decLegal, lane_one_lanes2]

theorem DecodeCause.erroff_lt {w off : Nat} {cnt : BitVec 2} {chars : BitVec 24} {r : DecRsp}
    (h : DecodeCause w cnt chars off r) : r.erroff < 2 ^ w := by
  have hpos : 0 < 2 ^ w := Nat.two_pow_pos w
  cases h with
  | cleanEnd | short | full => exact hpos
  | lone | invalid | overflow => exact Nat.mod_lt _ hpos

/-- ENC's payload after an edge is the one before it or a value of ENCODE; so it is legal if either is known (R21). -/
theorem encLegal_encNext {s : State} {p : PortInputs} (h : encLegal s.encRsp = true ∨ encRequest s p ≠ none) :
    encLegal (encNext s p).2 = true := by
  cases hreq : encRequest s p with
  | some r => simpa only [encNext_of_request hreq] using encLegal_refEncode r.cnt r.data
  | none => simpa only [encNext_of_no_request hreq] using h.resolve_right (not_not.mpr hreq)

theorem decLegal_decNext {s : State} {p : PortInputs} (h : decLegal s.decRsp = true ∨ decRequest s p ≠ none) :
    decLegal (decNext s p).2 = true := by
  cases hreq : decRequest s p with
  | some r => simpa only [decNext_of_request hreq] using (decodeCause_refDecode _ r.cnt r.chars r.off).decLegal
  | none => simpa only [decNext_of_no_request hreq] using h.resolve_right (not_not.mpr hreq)

/-- A response that a unit holds after an edge without a request of its own was held before it. -/
theorem encRspValid_or_request_of_encNext {s : State} {p : PortInputs} (h : (encNext s p).1 = true) :
    s.encRspValid = true ∨ encRequest s p ≠ none := by
  cases hreq : encRequest s p with
  | some r => exact .inr (Option.some_ne_none r)
  | none =>
    simp only [encNext_of_no_request hreq, Bool.and_eq_true] at h
    exact .inl h.1.1

theorem decRspValid_or_request_of_decNext {s : State} {p : PortInputs} (h : (decNext s p).1 = true) :
    s.decRspValid = true ∨ decRequest s p ≠ none := by
  cases hreq : decRequest s p with
  | some r => exact .inr (Option.some_ne_none r)
  | none =>
    simp only [decNext_of_no_request hreq, Bool.and_eq_true] at h
    exact .inl h.1.1

theorem erroff_decNext_lt {s : State} {p : PortInputs} (h : s.decRsp.erroff < 2 ^ s.cfg.offsetW) :
    (decNext s p).2.erroff < 2 ^ s.cfg.offsetW := by
  cases hreq : decRequest s p with
  | some r => simpa only [decNext_of_request hreq] using (decodeCause_refDecode _ r.cnt r.chars r.off).erroff_lt
  | none => simpa only [decNext_of_no_request hreq] using h

theorem inv_afterEdge {s : State} (p : PortInputs) (h : Inv s) : Inv (afterEdge s p) where
  cfg_wf := h.cfg_wf
  erroff_fits := erroff_decNext_lt h.erroff_fits
  enc_legal hv := encLegal_encNext ((encRspValid_or_request_of_encNext hv).imp_left h.enc_legal)
  dec_legal hv := decLegal_decNext ((decRspValid_or_request_of_decNext hv).imp_left h.dec_legal)

/-- After a reset edge no response is held, so that only the parameter and the offset's width are left of `Inv`. -/
theorem inv_afterEdge_of_rst {s : State} {p : PortInputs} (hcfg : s.cfg.wf = true)
    (hoff : s.decRsp.erroff < 2 ^ s.cfg.offsetW) (hrst : p.rst = true) : Inv (afterEdge s p) where
  cfg_wf := hcfg
  erroff_fits := erroff_decNext_lt hoff
  enc_legal hv := by simp [encNext_of_rst s hrst] at hv
  dec_legal hv := by simp [decNext_of_rst s hrst] at hv

/-! ### The status of a legal response (R73, R74) -/

theorem status_le_of_decLegal {r : DecRsp} (h : decLegal r = true) : r.status.toNat ≤ 4 := by
  simp only [decLegal, Bool.or_eq_true, Bool.and_eq_true, beq_iff_eq] at h
  have hstatus : r.status = 0 ∨ r.status = 1 ∨ r.status = 2 ∨ r.status = 3 ∨ r.status = 4 := by tauto
  rcases hstatus with h | h | h | h | h <;> simp [h]

/-- Of the five codes, those that are neither OK nor END are the errors (R73, R74). -/
theorem isCorruptInput_iff {status : BitVec 3} (h : status.toNat ≤ 4) :
    isCorruptInput status = true ↔ status ≠ DecStatus.ok.code ∧ status ≠ DecStatus.cleanEnd.code := by
  revert status
  decide

/-! ### The obligations about reset and the invariant -/

/-- Settles O48: every next state is `afterEdge`, which keeps each clause of the invariant. -/
theorem stepKeepsInvariant : Obligations.StepKeepsInvariant := by
  intro s t hinv hstep
  obtain ⟨p, -, rfl⟩ := step_next_cases hstep
  exact inv_afterEdge p hinv

/-- Settles O50: a payload after the edge is the old one or a value of ENCODE or DECODE. -/
theorem payloadStaysLegal : Obligations.PayloadStaysLegal := by
  intro s t p hcycle hstep
  obtain rfl := step_next_of_driven hcycle hstep
  exact ⟨encLegal_encNext, decLegal_decNext⟩

/-- Settles O51: `afterEdge` carries the parameter over. -/
theorem stepKeepsBuildParameter : Obligations.StepKeepsBuildParameter := by
  intro s t hstep
  obtain ⟨p, -, rfl⟩ := step_next_cases hstep
  rfl

/-- Settles O1: after a reset edge neither unit holds a response, so R17 leaves only `rst`. -/
theorem readyAfterReset : Obligations.ReadyAfterReset := by
  intro p q s t hcycle hrst hstep hq
  obtain rfl := step_next_of_driven hcycle hstep
  exact ⟨(encInReady_iff _ q).mpr ⟨hq, .inl (by simp [encNext_of_rst s hrst])⟩,
    (decInReady_iff _ q).mpr ⟨hq, .inl (by simp [decNext_of_rst s hrst])⟩⟩

/-- Settles O3: the reset edge of any such state, of which power-up is one since its offset is drawn at the width. -/
theorem resetEdgeEstablishesInvariant : Obligations.ResetEdgeEstablishesInvariant :=
  ⟨fun _ _ hcfg hoff hcycle hrst => ⟨_, step_eq_afterEdge hcycle, inv_afterEdge_of_rst hcfg hoff hrst⟩,
    fun c _ _ hcfg hrst => ⟨_, step_eq_afterEdge rfl,
      inv_afterEdge_of_rst hcfg (Nat.mod_lt _ (Nat.two_pow_pos c.offsetW)) hrst⟩⟩

/-- Settles O49: no response is held, the suggested parameter is one of R5, and the offset register holds 0. -/
theorem resetSatisfiesInvariant : Obligations.ResetSatisfiesInvariant :=
  ⟨⟨rfl, Nat.two_pow_pos 32, nofun, nofun⟩, rfl, rfl⟩

/-- Settles O52: a held response is legal, so its status is one of the five codes. -/
theorem heldStatusIsOneOfFive : Obligations.HeldStatusIsOneOfFive := by
  intro s hinv hv
  have hstatus := status_le_of_decLegal (hinv.dec_legal hv)
  exact ⟨hstatus, isCorruptInput_iff hstatus⟩

end Sys2Proof.Machine

/-! ## Family other: the handshake, one operation per transfer, and the order of responses -/

namespace Sys2Proof.Machine

open Sys2Proof Sys2Proof.Safety

/-! ### When a unit samples a request, and when nothing happens on it (R16, R17) -/

theorem encRequest_of_ready {s : State} {p : PortInputs} (hvalid : p.encInValid = true)
    (hready : encInReady s p = true) : encRequest s p = some ⟨p.encInCnt, p.encInData⟩ :=
  encRequest_of_transfer (by rw [hvalid, hready]; rfl)

theorem decRequest_of_ready {s : State} {p : PortInputs} (hvalid : p.decInValid = true)
    (hready : decInReady s p = true) :
    decRequest s p = some ⟨p.decInCnt, p.decInChars, p.decInOff % 2 ^ s.cfg.offsetW⟩ :=
  decRequest_of_transfer (by rw [hvalid, hready]; rfl)

theorem encRequest_eq_none_iff {s : State} {p : PortInputs} :
    encRequest s p = none ↔ (p.encInValid && encInReady s p) = false := by
  rw [encRequest, ite_eq_right_iff, Bool.eq_false_iff]
  exact forall_congr' fun _ => iff_of_false (Option.some_ne_none _) id

theorem decRequest_eq_none_iff {s : State} {p : PortInputs} :
    decRequest s p = none ↔ (p.decInValid && decInReady s p) = false := by
  rw [decRequest, ite_eq_right_iff, Bool.eq_false_iff]
  exact forall_congr' fun _ => iff_of_false (Option.some_ne_none _) id

/-- A unit whose response the host leaves standing accepts nothing (R17, R97). -/
theorem encRequest_of_stall {s : State} {p : PortInputs} (hv : s.encRspValid = true) (hr : p.encRspReady = false) :
    encRequest s p = none :=
  encRequest_of_no_transfer (by simp [encInReady, hv, hr])

theorem decRequest_of_stall {s : State} {p : PortInputs} (hv : s.decRspValid = true) (hr : p.decRspReady = false) :
    decRequest s p = none :=
  decRequest_of_no_transfer (by simp [decInReady, hv, hr])

/-- A unit that is offered nothing and has no response taken keeps its registers (R18). -/
theorem encNext_of_idle {s : State} {p : PortInputs} (hrst : p.rst = false) (hin : p.encInValid = false)
    (hrsp : s.encRspValid = false ∨ p.encRspReady = false) : encNext s p = (s.encRspValid, s.encRsp) := by
  rw [encNext_of_no_request (encRequest_of_no_transfer (by simp [hin]))]
  rcases hrsp with h | h <;> simp [h, hrst]

theorem decNext_of_idle {s : State} {p : PortInputs} (hrst : p.rst = false) (hin : p.decInValid = false)
    (hrsp : s.decRspValid = false ∨ p.decRspReady = false) : decNext s p = (s.decRspValid, s.decRsp) := by
  rw [decNext_of_no_request (decRequest_of_no_transfer (by simp [hin]))]
  rcases hrsp with h | h <;> simp [h, hrst]

/-- A response that the host is not ready for stays, outside reset (R94). -/
theorem encNext_of_stall {s : State} {p : PortInputs} (hrst : p.rst = false) (hv : s.encRspValid = true)
    (hr : p.encRspReady = false) : encNext s p = (true, s.encRsp) := by
  simp [encNext_of_no_request (encRequest_of_stall hv hr), hrst, hv, hr]

theorem decNext_of_stall {s : State} {p : PortInputs} (hrst : p.rst = false) (hv : s.decRspValid = true)
    (hr : p.decRspReady = false) : decNext s p = (true, s.decRsp) := by
  simp [decNext_of_no_request (decRequest_of_stall hv hr), hrst, hv, hr]

/-! ### What a unit's next registers depend on (R10, R16) -/

theorem encRequest_congr {s s' : State} {p q : PortInputs} (hready : encInReady s p = encInReady s' q)
    (hvalid : p.encInValid = q.encInValid) (hcnt : p.encInCnt = q.encInCnt) (hdata : p.encInData = q.encInData) :
    encRequest s p = encRequest s' q := by
  rw [encRequest, encRequest, hready, hvalid, hcnt, hdata]

theorem decRequest_congr {s s' : State} {p q : PortInputs} (hready : decInReady s p = decInReady s' q)
    (hvalid : p.decInValid = q.decInValid) (hcnt : p.decInCnt = q.decInCnt) (hchars : p.decInChars = q.decInChars)
    (hoff : trunc s.cfg.offsetW p.decInOff = trunc s'.cfg.offsetW q.decInOff) : decRequest s p = decRequest s' q := by
  rw [decRequest, decRequest, hready, hvalid, hcnt, hchars, hoff]

/-- ENC's next registers depend on the sampled request, ENC's registers, `rst` and `enc_rsp_ready`, and nothing else. -/
theorem encNext_congr {s s' : State} {p q : PortInputs} (hreq : encRequest s p = encRequest s' q)
    (hv : s.encRspValid = s'.encRspValid) (hrsp : s.encRsp = s'.encRsp) (hrst : p.rst = q.rst)
    (hr : p.encRspReady = q.encRspReady) : encNext s p = encNext s' q := by
  rw [encNext, encNext, hreq, hv, hrsp, hrst, hr]

/-- DEC's next registers depend on the sampled request, DEC's registers, the offset width, `rst` and `dec_rsp_ready`. -/
theorem decNext_congr {s s' : State} {p q : PortInputs} (hcfg : s.cfg = s'.cfg)
    (hreq : decRequest s p = decRequest s' q) (hv : s.decRspValid = s'.decRspValid) (hrsp : s.decRsp = s'.decRsp)
    (hrst : p.rst = q.rst) (hr : p.decRspReady = q.decRspReady) : decNext s p = decNext s' q := by
  rw [decNext, decNext, hcfg, hreq, hv, hrsp, hrst, hr]

theorem afterEdge_congr {s s' : State} {p q : PortInputs} (hcfg : s.cfg = s'.cfg) (hpins : s.pins.tail = s'.pins.tail)
    (hcycle : s.cycle = s'.cycle) (henc : encNext s p = encNext s' q) (hdec : decNext s p = decNext s' q) :
    afterEdge s p = afterEdge s' q := by
  rw [afterEdge, afterEdge, hcfg, hpins, hcycle, henc, hdec]

/-! ### The state after an edge with request transfers, as register loads (R18) -/

theorem afterEdge_of_enc_request {s : State} {p : PortInputs} {r : EncReq} (henc : encRequest s p = some r)
    (hdec : decNext s p = (s.decRspValid, s.decRsp)) :
    afterEdge s p = loadEncRsp (refEncode r.cnt r.data) (nextCycle s) := by
  rw [afterEdge, encNext_of_request henc, hdec]
  rfl

theorem afterEdge_of_dec_request {s : State} {p : PortInputs} {r : DecReq} (hdec : decRequest s p = some r)
    (henc : encNext s p = (s.encRspValid, s.encRsp)) :
    afterEdge s p = loadDecRsp (refDecode s.cfg.offsetW r.cnt r.chars r.off) (nextCycle s) := by
  rw [afterEdge, decNext_of_request hdec, henc]
  rfl

theorem afterEdge_of_both_requests {s : State} {p : PortInputs} {r : EncReq} {q : DecReq}
    (henc : encRequest s p = some r) (hdec : decRequest s p = some q) :
    afterEdge s p = loadDecRsp (refDecode s.cfg.offsetW q.cnt q.chars q.off)
      (loadEncRsp (refEncode r.cnt r.data) (nextCycle s)) := by
  rw [afterEdge, encNext_of_request henc, decNext_of_request hdec]
  rfl

/-- The word on ENC's ports decodes to the request that ENC samples (R46, R50). -/
theorem instr_of_decode_enc {c : Config} {cnt : BitVec 2} {data : BitVec 16} {i : Instr}
    (h : decode c .enc (packEncReq cnt data).toNat = .ok i) : i = (EncReq.mk cnt data).instr :=
  Except.ok.inj (h.symm.trans (decode_packEncReq c cnt data))

/-- The word on DEC's ports, of the offset what the wires carry, decodes to the request that DEC samples (R48, R51). -/
theorem instr_of_decode_dec {c : Config} {off : Nat} {cnt : BitVec 2} {chars : BitVec 24} {i : Instr}
    (h : decode c .dec (packDecReq (off % 2 ^ c.offsetW) cnt chars) = .ok i) :
    i = (DecReq.mk cnt chars (off % 2 ^ c.offsetW)).instr := by
  have hoff : off % 2 ^ c.offsetW < 2 ^ c.offsetW := Nat.mod_lt _ (Nat.two_pow_pos _)
  have hfits := (packDecReq_fits_iff c _ cnt chars).mpr ((offsetFits_iff c _).mpr hoff)
  exact Except.ok.inj (h.symm.trans (decode_packDecReq hfits))

/-! ### The host cycle that places a request (log 4) -/

theorem offering_decodeEncReq (cnt : BitVec 2) (data : BitVec 16) :
    offering (some (decodeEncReq (packEncReq cnt data))) = ⟨false, true, cnt, data, true, false, 0, 0, 0, false⟩ := by
  rcases cnt_cases cnt with rfl | rfl | rfl | rfl
  · rw [decodeEncReq_pack_0, offering, lanes2_lane]
  · rw [decodeEncReq_pack_1, offering, lanes2_lane]
  · rw [decodeEncReq_pack_2, offering, lanes2_lane]
  · rw [decodeEncReq_pack_3, offering, lanes2_lane]

theorem offering_decodeDecReq (cnt : BitVec 2) (chars : BitVec 24) (off : Nat) :
    offering (some (decodeDecReq off (packDecReqLow cnt chars))) =
      ⟨false, false, 0, 0, false, true, cnt, chars, off, true⟩ := by
  rcases cnt_cases cnt with rfl | rfl | rfl | rfl
  · rw [decodeDecReq_pack_0, offering, lanes3_lane]
  · rw [decodeDecReq_pack_1, offering, lanes3_lane]
  · rw [decodeDecReq_pack_2, offering, lanes3_lane]
  · rw [decodeDecReq_pack_3, offering, lanes3_lane]

theorem withFetchWord_of_decode {s : State} {nbits w : Nat} {i : Instr}
    (h : decode s.cfg (channelOfWidth nbits) w = .ok i) :
    s.withFetchWord nbits w = { s with pins := .driven (offering (some i)) :: s.pins } := by
  simp only [State.withFetchWord, presentWord, h]

/-! ### The obligations about one cycle -/

/-- Settles O7: the sampled request is answered, DEC keeps its registers, and the answer is that of `exec`. -/
theorem stepRunsEncoderRequest : Obligations.StepRunsEncoderRequest := by
  intro s p i hcycle hvalid hready hdec hidle hrsp
  obtain rfl := instr_of_decode_enc hdec
  obtain ⟨hrst, -⟩ := (encInReady_iff s p).mp hready
  rw [step_eq_afterEdge hcycle,
    afterEdge_of_enc_request (encRequest_of_ready hvalid hready) (decNext_of_idle hrst hidle hrsp)]
  exact (exec_encReq ⟨p.encInCnt, p.encInData⟩ (nextCycle s)).symm

/-- Settles O8: the sampled request is answered, ENC keeps its registers, and the answer is that of `exec`. -/
theorem stepRunsDecoderRequest : Obligations.StepRunsDecoderRequest := by
  intro s p i hcycle hvalid hready hdec hidle hrsp
  obtain rfl := instr_of_decode_dec hdec
  obtain ⟨hrst, -⟩ := (decInReady_iff s p).mp hready
  rw [step_eq_afterEdge hcycle,
    afterEdge_of_dec_request (decRequest_of_ready hvalid hready) (encNext_of_idle hrst hidle hrsp)]
  exact (exec_decReq ⟨p.decInCnt, p.decInChars, p.decInOff % 2 ^ s.cfg.offsetW⟩ (nextCycle s)).symm

/-- Settles O9: both answers are loaded, and loads of the two units' registers commute. -/
theorem stepRunsBothRequests : Obligations.StepRunsBothRequests := by
  intro s p i j hcycle hencValid hencReady hdecValid hdecReady henc hdec
  obtain rfl := instr_of_decode_enc henc
  obtain rfl := instr_of_decode_dec hdec
  have hstep := (step_eq_afterEdge hcycle).trans (congrArg _ (afterEdge_of_both_requests
    (encRequest_of_ready hencValid hencReady) (decRequest_of_ready hdecValid hdecReady)))
  exact ⟨_, _, _, exec_encReq _ _, exec_decReq _ _, hstep, exec_decReq _ _, exec_encReq _ _⟩

/-- Settles O10: the placed cycle offers the word's request to its unit alone, which is ready in it (O7, O8). -/
theorem presentedWordRunsNext : Obligations.PresentedWordRunsNext := by
  intro s nbits w i hdec
  obtain ⟨-, hch, hwf⟩ := encodeOfDecodeIsIdentity _ _ _ _ hdec
  have hself := decodeOfEncodeIsIdentity _ _ hwf
  rw [withFetchWord_of_decode hdec]
  cases hunit : i.channel with
  | enc =>
    obtain ⟨cnt, data, rfl⟩ := exists_fields_of_channel_enc hunit
    rw [hunit, encode_decodeEncReq] at hself
    rw [offering_decodeEncReq]
    exact stepRunsEncoderRequest _ _ _ rfl rfl ((encInReady_iff _ _).mpr ⟨rfl, .inr rfl⟩) hself rfl (.inr rfl)
  | dec =>
    obtain ⟨cnt, chars, off, rfl⟩ := exists_fields_of_channel_dec hunit
    rw [hunit, encode_decodeDecReq] at hself
    rw [wf_decodeDecReq, offsetFits_iff] at hwf
    rw [offering_decodeDecReq]
    refine stepRunsDecoderRequest _ _ _ rfl rfl ((decInReady_iff _ _).mpr ⟨rfl, .inr rfl⟩) ?_ rfl (.inr rfl)
    rwa [Nat.mod_eq_of_lt hwf]

/-- Settles O11: whether a request is sampled does not depend on the payload, and without one no payload port is
read. -/
theorem payloadMattersOnlyAtTransfer : Obligations.PayloadMattersOnlyAtTransfer := by
  refine fun s p rest cnt => ⟨fun hreq data => ?_, fun hreq chars off => ?_⟩ <;>
    rw [step_eq_afterEdge rfl, step_eq_afterEdge rfl]
  · have hnone : encRequest s { p with encInCnt := cnt, encInData := data } = none :=
      encRequest_eq_none_iff.mpr ((encRequest_eq_none_iff (p := p)).mp hreq)
    exact congrArg _ (afterEdge_congr rfl rfl rfl (encNext_congr (hnone.trans hreq.symm) rfl rfl rfl rfl) rfl)
  · have hnone : decRequest s { p with decInCnt := cnt, decInChars := chars, decInOff := off } = none :=
      decRequest_eq_none_iff.mpr ((decRequest_eq_none_iff (p := p)).mp hreq)
    exact congrArg _ (afterEdge_congr rfl rfl rfl rfl (decNext_congr rfl (hnone.trans hreq.symm) rfl rfl rfl rfl))

/-- Settles O12: a stalled unit samples nothing and its response is not taken. -/
theorem stalledResponseIsStable : Obligations.StalledResponseIsStable := by
  intro s p hcycle hrst
  refine ⟨_, step_eq_afterEdge hcycle, fun hv hr => ?_, fun hv hr => ?_⟩
  · simp [encNext_of_stall hrst hv hr]
  · simp [decNext_of_stall hrst hv hr]

/-- Settles O13: with `*_rsp_ready` at 1 the unit is ready, so the request is sampled and its answer held. -/
theorem oneCycleLatencyBackToBack : Obligations.OneCycleLatencyBackToBack := by
  intro s p hcycle hrst
  refine ⟨_, step_eq_afterEdge hcycle, fun hvalid hr => ?_, fun hvalid hr => ?_, encRequest_of_stall,
    decRequest_of_stall⟩
  · have hreq := encRequest_of_ready hvalid ((encInReady_iff s p).mpr ⟨hrst, .inr hr⟩)
    exact ⟨hreq, by simp [encSample, encNext_of_request hreq]⟩
  · have hreq := decRequest_of_ready hvalid ((decInReady_iff s p).mpr ⟨hrst, .inr hr⟩)
    exact ⟨hreq, by simp [decSample, decNext_of_request hreq]⟩

/-- Settles O15: a cycle has driven inputs unless the host has settled a loop for it. -/
theorem onlyCombinationalLoopsStop : Obligations.OnlyCombinationalLoopsStop := by
  intro s
  cases hpins : s.pins with
  | nil => exact .inl ⟨_, step_eq_afterEdge (p := drawnInputs s.cycle) (by simp only [currentCycle, hpins])⟩
  | cons c rest =>
    cases c with
    | driven p => exact .inl ⟨_, step_eq_afterEdge (currentCycle_of_pins_cons hpins)⟩
    | loop port => exact .inr ⟨port, rest, rfl⟩

/-- Settles O17: each unit's next registers are a function of its own registers and ports. -/
theorem unitsAreIndependent : Obligations.UnitsAreIndependent := by
  intro s s' p q hs hs' hrst
  refine ⟨_, _, step_eq_afterEdge hs, step_eq_afterEdge hs', ?_, ?_⟩
  · intro hv hrsp hvalid hcnt hdata hr
    have hready : encInReady s p = encInReady s' q := by rw [encInReady, encInReady, hrst, hv, hr]
    have hnext := encNext_congr (encRequest_congr hready hvalid hcnt hdata) hv hrsp hrst hr
    simp [hnext]
  · intro hcfg hv hrsp hvalid hcnt hchars hoff hr
    have hready : decInReady s p = decInReady s' q := by rw [decInReady, decInReady, hrst, hv, hr]
    have hnext := decNext_congr hcfg (decRequest_congr hready hvalid hcnt hchars (by rw [hcfg, hoff])) hv hrsp hrst hr
    simp [hnext]

/-! ### The order of responses over a run (R35) -/

theorem trace_succ_cases {n : Nat} {s t : State} {es : List CycleEvents} (h : trace (n + 1) s = some (es, t)) :
    ∃ p es', currentCycle s = .driven p ∧ trace n (afterEdge s p) = some (es', t) ∧ es = cycleEvents s p :: es' := by
  cases hcycle : currentCycle s with
  | loop port => simp [trace, hcycle] at h
  | driven p =>
    simp only [trace, hcycle, step_eq_afterEdge hcycle, Option.map_eq_some_iff, Prod.mk.injEq] at h
    obtain ⟨⟨es', t'⟩, htrace, rfl, rfl⟩ := h
    exact ⟨p, es', rfl, htrace, rfl⟩

/-- In one cycle outside reset, what ENC held and its answer to the request it accepts are what is taken from it and
what it holds then. -/
theorem enc_order_cycle {s : State} {p : PortInputs} (hrst : p.rst = false) :
    heldEnc s ++ (encRequest s p).toList.map (fun r => refEncode r.cnt r.data) =
      (encResponseTaken s p).toList ++ heldEnc (afterEdge s p) := by
  cases hreq : encRequest s p with
  | some r =>
    have hready := encInReady_of_encRequest (hreq ▸ Option.some_ne_none r)
    cases hv : s.encRspValid with
    | false => simp [heldEnc, encResponseTaken, hv, encNext_of_request hreq]
    | true => simp [heldEnc, encResponseTaken_of_ready hready hv, hv, encNext_of_request hreq]
  | none =>
    cases hv : s.encRspValid <;> cases hr : p.encRspReady <;>
      simp [heldEnc, encResponseTaken, encNext_of_no_request hreq, hv, hr, hrst]

theorem dec_order_cycle {s : State} {p : PortInputs} (hrst : p.rst = false) :
    heldDec s ++ (decRequest s p).toList.map (fun r => refDecode s.cfg.offsetW r.cnt r.chars r.off) =
      (decResponseTaken s p).toList ++ heldDec (afterEdge s p) := by
  cases hreq : decRequest s p with
  | some r =>
    have hready := decInReady_of_decRequest (hreq ▸ Option.some_ne_none r)
    cases hv : s.decRspValid with
    | false => simp [heldDec, decResponseTaken, hv, decNext_of_request hreq]
    | true => simp [heldDec, decResponseTaken_of_ready hready hv, hv, decNext_of_request hreq]
  | none =>
    cases hv : s.decRspValid <;> cases hr : p.decRspReady <;>
      simp [heldDec, decResponseTaken, decNext_of_no_request hreq, hv, hr, hrst]

theorem filterMap_cons_eq_toList_append {α β : Type} (f : α → Option β) (a : α) (l : List α) :
    (a :: l).filterMap f = (f a).toList ++ l.filterMap f := by
  cases h : f a <;> simp [h]

/-- The induction over a run, once for both units: a law of one cycle that says `held`, then the answers `answer` to the
requests `req`, are the responses `rsp` and then what is held after the cycle, is a law of every run outside reset. -/
theorem order_of_trace {Req Rsp : Type} {held : State → List Rsp} {req : CycleEvents → Option Req}
    {rsp : CycleEvents → Option Rsp} {answer : Config → Req → Rsp}
    (hcycle : ∀ (s : State) (p : PortInputs), p.rst = false →
      held s ++ (req (cycleEvents s p)).toList.map (answer s.cfg) =
        (rsp (cycleEvents s p)).toList ++ held (afterEdge s p))
    {n : Nat} {s t : State} {es : List CycleEvents} (htrace : trace n s = some (es, t))
    (hrst : ∀ e ∈ es, e.rst = false) :
    held s ++ (es.filterMap req).map (answer s.cfg) = es.filterMap rsp ++ held t := by
  induction n generalizing s es with
  | zero =>
    obtain ⟨rfl, rfl⟩ : [] = es ∧ s = t := by simpa [trace] using htrace
    simp
  | succ n ih =>
    obtain ⟨p, es', -, htail, rfl⟩ := trace_succ_cases htrace
    have hp : p.rst = false := hrst _ List.mem_cons_self
    have hrest := ih htail fun e he => hrst e (List.mem_cons_of_mem _ he)
    rw [filterMap_cons_eq_toList_append, filterMap_cons_eq_toList_append, List.map_append, ← List.append_assoc,
      hcycle s p hp, List.append_assoc, List.append_assoc]
    exact congrArg _ hrest

/-- Settles O16: the law of one cycle of each unit, along the run. -/
theorem responsesFollowRequestOrder : Obligations.ResponsesFollowRequestOrder := by
  intro n s t es htrace hrst
  exact ⟨order_of_trace (answer := fun _ (r : EncReq) => refEncode r.cnt r.data) (fun _ _ => enc_order_cycle) htrace
      hrst,
    order_of_trace (answer := fun c (r : DecReq) => refDecode c.offsetW r.cnt r.chars r.off) (fun _ _ =>
      dec_order_cycle) htrace hrst⟩

end Sys2Proof.Machine

/-! ## Family other: the arithmetic of blocks, and the frames of the two units' operations -/

namespace Sys2Proof.Machine

open Sys2Proof Sys2Proof.Safety

/-! ### The tables as inverse lookups (R28) -/

/-- A character of the alphabet is the entry of the digit it reads. -/
theorem encLut_of_decLut {b : Byte} {d : Digit} (h : decLut b = some d) : encLut d = b := by
  have hpos : encTable.idxOf? b = some d.val := by
    have hdigit := refDigit_toNat b
    rwa [refDigit, BitVec.ofNat_toNat, BitVec.setWidth_eq, h] at hdigit
  obtain ⟨_, hget, -⟩ := List.findIdx?_eq_some_iff_getElem.mp hpos
  exact beq_iff_eq.mp hget

/-! ### The digits of a block carry its value (R63), and the value carries its bytes (R66, R71) -/

theorem fullDigitsValue_encDigits (b0 b1 : Byte) :
    fullDigitsValue (digit0 (fullBytesValue b0 b1)) (digit1 (fullBytesValue b0 b1)) (fullDigit2 b0 b1) =
      fullBytesValue b0 b1 := by
  simp only [fullDigitsValue, digit0, digit1, fullDigit2]
  omega

theorem shortDigitsValue_encDigits (b0 : Byte) :
    shortDigitsValue (digit0 (shortBytesValue b0)) (shortDigit1 b0) = shortBytesValue b0 := by
  simp only [shortDigitsValue, digit0, shortDigit1]
  omega

theorem fullDigit2_le (b0 b1 : Byte) : (fullDigit2 b0 b1).val ≤ 32 := by
  have hv := fullBytesValue_lt b0 b1
  simp only [fullDigit2]
  omega

theorem shortDigit1_le (b0 : Byte) : (shortDigit1 b0).val ≤ 5 := by
  have hv := shortBytesValue_lt b0
  simp only [shortDigit1]
  omega

theorem fullDigitsValue_le (c0 c1 c2 : Digit) : fullDigitsValue c0 c1 c2 ≤ 91124 := by
  have h0 := c0.isLt
  have h1 := c1.isLt
  have h2 := c2.isLt
  simp only [fullDigitsValue]
  omega

theorem shortDigitsValue_le (c0 c1 : Digit) : shortDigitsValue c0 c1 ≤ 2024 := by
  have h0 := c0.isLt
  have h1 := c1.isLt
  simp only [shortDigitsValue]
  omega

theorem overflows_iff (v : Nat) : overflows v = true ↔ 65535 < v := decide_eq_true_iff

theorem toNat_truncByte_high {v : Nat} (h : v ≤ 65535) : (truncByte (v / 256)).toNat = v / 256 := by
  rw [truncByte, BitVec.toNat_ofNat]
  omega

theorem fullBlockBytes_fullBytesValue (b0 b1 : Byte) : fullBlockBytes (fullBytesValue b0 b1) = lanes2 b0 b1 := by
  have h0 := b0.isLt
  have h1 := b1.isLt
  apply BitVec.eq_of_toNat_eq
  simp only [fullBlockBytes, toNat_lanes2, truncByte, BitVec.toNat_ofNat, fullBytesValue]
  omega

/-! ### The characters of a block decode back to its bytes (R64) -/

/-- The characters of a full block (R59). -/
def fullBlockChars (b0 b1 : Byte) : List Byte :=
  [encLut (digit0 (fullBytesValue b0 b1)), encLut (digit1 (fullBytesValue b0 b1)), encLut (fullDigit2 b0 b1)]

/-- The characters of a short block (R60). -/
def shortBlockChars (b0 : Byte) : List Byte := [encLut (digit0 (shortBytesValue b0)), encLut (shortDigit1 b0)]

@[simp] theorem charList_encFullResponse (b0 b1 : Byte) : (encFullResponse b0 b1).charList = fullBlockChars b0 b1 := by
  simp only [EncRsp.charList, encFullResponse, encResponse, lane_zero_lanes3, lane_one_lanes3, lane_two_lanes3]
  rfl

@[simp] theorem charList_encShortResponse (b0 : Byte) : (encShortResponse b0).charList = shortBlockChars b0 := by
  simp only [EncRsp.charList, encShortResponse, encResponse, lane_zero_lanes3, lane_one_lanes3, lane_two_lanes3]
  rfl

theorem decFullResponse_encDigits (w : Nat) (b0 b1 : Byte) (off : Nat) :
    decFullResponse w (encLut (digit0 (fullBytesValue b0 b1))) (encLut (digit1 (fullBytesValue b0 b1)))
      (encLut (fullDigit2 b0 b1)) off = ⟨0, 2, 3, lanes2 b0 b1, 0⟩ := by
  have hv := fullBytesValue_lt b0 b1
  rw [decFullResponse_of_digits (decLut_encLut _) (decLut_encLut _) (decLut_encLut _)]
  obtain ⟨hover, -⟩ | ⟨-, h⟩ := decFullBlock_cases w (digit0 (fullBytesValue b0 b1)) (digit1 (fullBytesValue b0 b1))
    (fullDigit2 b0 b1) off
  · rw [fullDigitsValue_encDigits] at hover
    omega
  · rw [h, fullDigitsValue_encDigits, fullBlockBytes_fullBytesValue]
    rfl

theorem decShortResponse_encDigits (w : Nat) (b0 : Byte) (off : Nat) :
    decShortResponse w (encLut (digit0 (shortBytesValue b0))) (encLut (shortDigit1 b0)) off =
      ⟨0, 1, 2, lanes2 b0 0, 0⟩ := by
  have hbyte : truncByte (shortBytesValue b0) = b0 := by simp [truncByte, shortBytesValue]
  rw [decShortResponse_of_digits (decLut_encLut _) (decLut_encLut _), shortDigitsValue_encDigits,
    ← lanes2_truncByte_zero, hbyte]

/-! ### The obligations about tables, values and frames -/

/-- Settles O20: each table read through the other. -/
theorem tablesAreInverse : Obligations.TablesAreInverse := ⟨decLut_encLut, fun _ _ => encLut_of_decLut⟩

/-- Settles O26: the base-45 digits put back together, and their bounds from those of the value. -/
theorem encoderDigitsCarryTheValue : Obligations.EncoderDigitsCarryTheValue :=
  ⟨fun b0 b1 => ⟨Nat.le_of_lt_succ (fullBytesValue_lt b0 b1), fullDigitsValue_encDigits b0 b1, fullDigit2_le b0 b1⟩,
    fun b0 => ⟨shortDigitsValue_encDigits b0, shortDigit1_le b0⟩⟩

/-- Settles O28: an encoder request loads its answer into ENC's register. -/
theorem encoderOperationsTouchOnlyEncoder : Obligations.EncoderOperationsTouchOnlyEncoder := by
  intro i s hch
  obtain ⟨r, -, -, he⟩ | ⟨-, -, hdec, -⟩ := exec_cases i s
  · exact ⟨_, he, rfl⟩
  · simp [hch] at hdec

/-- Settles O38: a decoder request loads its answer into DEC's register. -/
theorem decoderOperationsTouchOnlyDecoder : Obligations.DecoderOperationsTouchOnlyDecoder := by
  intro i s hch
  obtain ⟨-, -, henc, -⟩ | ⟨r, -, -, he⟩ := exec_cases i s
  · simp [hch] at henc
  · exact ⟨_, he, rfl⟩

/-- Settles O34: the largest digits give the bounds, and a value that does not overflow has one byte above its low
one. -/
theorem decoderValueRanges : Obligations.DecoderValueRanges := by
  refine ⟨fun c0 c1 c2 => ⟨fullDigitsValue_le c0 c1 c2, overflows_iff _, fun hfits => ?_⟩, shortDigitsValue_le⟩
  have hv : ¬65535 < fullDigitsValue c0 c1 c2 := by simp [← overflows_iff, hfits]
  exact toNat_truncByte_high (Nat.not_lt.mp hv)

/-- Settles O41: the lanes of the answer are the characters of the block, which DEC answers with its bytes. -/
theorem encoderResultsDecodeBack : Obligations.EncoderResultsDecodeBack := by
  refine ⟨fun b0 b1 off s => ⟨_, _, exec_of_encAnswer rfl s, exec_of_decAnswer rfl, ?_⟩,
    fun b0 b1 ch2 off s => ⟨_, _, exec_of_encAnswer rfl s, exec_of_decAnswer rfl, ?_⟩⟩
  · simp only [loadDecRsp_decRsp, loadEncRsp_encRsp, encFullResponse, encResponse, lane_zero_lanes3, lane_one_lanes3,
      lane_two_lanes3, decFullResponse_encDigits]
  · simp only [loadDecRsp_decRsp, loadEncRsp_encRsp, encShortResponse, encResponse, lane_zero_lanes3, lane_one_lanes3,
      decShortResponse_encDigits]

end Sys2Proof.Machine

/-! ## Family other: the host's whole-buffer encode and decode (log 14) -/

namespace Sys2Proof.Machine

open Sys2Proof Sys2Proof.Safety

/-! ### Whole-buffer encode (R38, R39) -/

/-- The characters of a byte sequence, block by block (R38). -/
def encodedChars : List Byte → List Byte
  | [] => []
  | [b0] => shortBlockChars b0
  | b0 :: b1 :: rest => fullBlockChars b0 b1 ++ encodedChars rest

theorem askEnc_of_encAnswer {i : Instr} {r : EncRsp} (h : encAnswer i = some r) (s : State) :
    askEnc s i = some (r, loadEncRsp r s) := by
  simp only [askEnc, exec_of_encAnswer h s, loadEncRsp_encRsp]

theorem askAllEnc_cons {i : Instr} {r : EncRsp} (h : encAnswer i = some r) (s : State) (is : List Instr) :
    askAllEnc s (i :: is) = (askAllEnc (loadEncRsp r s) is).map (r.charList ++ ·) := by
  simp only [askAllEnc, askEnc_of_encAnswer h s]

/-- A whole-buffer encode completes, from any state, with the characters of its blocks. -/
theorem hostEncode_eq (s : State) (src : List Byte) : hostEncode s src = some (encodedChars src) := by
  unfold hostEncode
  induction src using encsRequests.induct generalizing s with
  | case1 => rfl
  | case2 b0 =>
    rw [encsRequests, Asm.enc1, askAllEnc_cons rfl]
    simp [askAllEnc, encodedChars]
  | case3 b0 b1 rest ih =>
    rw [encsRequests, Asm.enc2, askAllEnc_cons rfl, ih]
    simp [encodedChars]

theorem length_encodedChars (src : List Byte) : (encodedChars src).length = encodedLength src.length := by
  induction src using encodedChars.induct with
  | case1 => rfl
  | case2 b0 => simp [encodedChars, shortBlockChars, encodedLength]
  | case3 b0 b1 rest ih =>
    simp only [encodedChars, List.length_append, ih, encodedLength, fullBlockChars, List.length_cons, List.length_nil]
    split_ifs <;> omega

/-- The upper bound of R42 leaves room for what was encoded. -/
theorem decodedLengthUpperBound_encodedLength (n : Nat) : decodedLengthUpperBound (encodedLength n) = n := by
  simp only [decodedLengthUpperBound, encodedLength]
  split_ifs <;> omega

theorem encodedLength_of_even {n : Nat} (h : n % 2 = 0) : encodedLength n = n / 2 * 3 := by
  simp [encodedLength, h]

/-! ### The decoder requests of a buffer (R40) -/

/-- The request at a position carries the characters that are left there, and the position. -/
theorem decsRequest_of_drop (w : Nat) (pad : Nat → Nat → Byte) {src rest : List Byte} {pos : Nat}
    (h : src.drop pos = rest) : decsRequest w pad src pos =
      ⟨BitVec.ofNat 2 (min rest.length 3), lanes3 (rest.getD 0 (pad pos 0)) (rest.getD 1 (pad pos 1))
        (rest.getD 2 (pad pos 2)), trunc w pos⟩ := by
  subst h
  simp [decsRequest]

section

variable (w : Nat) (pad : Nat → Nat → Byte) {src rest : List Byte} {pos : Nat} {a b c : Byte}

theorem decsRequest_instr_end (h : src.drop pos = []) : (decsRequest w pad src pos).instr =
    .dec0 (pad pos 0) (pad pos 1) (pad pos 2) (trunc w pos) := by
  rw [decsRequest_of_drop w pad h, DecReq.instr]
  exact (decodeDecReq_pack_0 _ _).trans (by rw [lane_zero_lanes3, lane_one_lanes3, lane_two_lanes3]; rfl)

theorem decsRequest_instr_lone (h : src.drop pos = [a]) : (decsRequest w pad src pos).instr =
    .dec1 a (pad pos 1) (pad pos 2) (trunc w pos) := by
  rw [decsRequest_of_drop w pad h, DecReq.instr]
  exact (decodeDecReq_pack_1 _ _).trans (by rw [lane_zero_lanes3, lane_one_lanes3, lane_two_lanes3]; rfl)

theorem decsRequest_instr_short (h : src.drop pos = [a, b]) : (decsRequest w pad src pos).instr =
    .dec2 a b (pad pos 2) (trunc w pos) := by
  rw [decsRequest_of_drop w pad h, DecReq.instr]
  exact (decodeDecReq_pack_2 _ _).trans (by rw [lane_zero_lanes3, lane_one_lanes3, lane_two_lanes3]; rfl)

theorem decsRequest_instr_full (h : src.drop pos = a :: b :: c :: rest) : (decsRequest w pad src pos).instr =
    .dec3 a b c (trunc w pos) := by
  have hcnt : min (a :: b :: c :: rest).length 3 = 3 := Nat.min_eq_right (Nat.le_add_left 3 rest.length)
  rw [decsRequest_of_drop w pad h, DecReq.instr, hcnt]
  exact (decodeDecReq_pack_3 _ _).trans (by rw [lane_zero_lanes3, lane_one_lanes3, lane_two_lanes3]; rfl)

end

/-! ### One turn of the decode loop (R40, R41) -/

/-- A decode that has `bs` before it. -/
def DecodeResult.prepend (bs : List Byte) (d : DecodeResult) : DecodeResult := ⟨bs ++ d.bytes, d.error⟩

theorem DecodeResult.prepend_nil : DecodeResult.prepend [] = id := rfl

theorem DecodeResult.prepend_append (bs cs : List Byte) (d : DecodeResult) :
    d.prepend (bs ++ cs) = (d.prepend cs).prepend bs := by
  simp only [prepend, List.append_assoc]

/-- An error status is neither of those that let the loop end cleanly or go on (R73). -/
theorem status_ne_of_isCorruptInput {status : BitVec 3} (h : isCorruptInput status = true) :
    status ≠ DecStatus.cleanEnd.code ∧ status ≠ DecStatus.ok.code := by
  revert status
  decide

theorem exists_decAnswer (w : Nat) {i : Instr} (h : i.channel = .dec) : ∃ r, decAnswer w i = some r := by
  cases i with
  | enc0 | enc1 | enc2 | enc3 => cases h
  | dec0 | dec1 | dec2 | dec3 => exact ⟨_, rfl⟩

section

variable {pad : Nat → Nat → Byte} {src : List Byte} {pos : Nat} {s : State} {r : DecRsp}

theorem hostDecodeFrom_succ (fuel : Nat)
    (h : decAnswer s.cfg.offsetW (decsRequest s.cfg.offsetW pad src pos).instr = some r) :
    hostDecodeFrom pad src (fuel + 1) pos s =
      if r.status = DecStatus.cleanEnd.code then some ⟨[], none⟩
      else if r.status = DecStatus.ok.code then
        (hostDecodeFrom pad src fuel (pos + r.consumed.toNat) (loadDecRsp r s)).map (.prepend r.byteList)
      else some ⟨r.byteList, some (r.status, r.erroff)⟩ := by
  simp only [hostDecodeFrom, askDec, exec_of_decAnswer h, loadDecRsp_decRsp]
  rfl

/-- The decode loop reads nothing of the state but the offset width (R79). -/
theorem hostDecodeFrom_congr {fuel pos : Nat} {s t : State} (h : s.cfg = t.cfg) :
    hostDecodeFrom pad src fuel pos s = hostDecodeFrom pad src fuel pos t := by
  induction fuel generalizing pos s t with
  | zero => rfl
  | succ fuel ih =>
    obtain ⟨r, hr⟩ := exists_decAnswer s.cfg.offsetW
      (show (decsRequest s.cfg.offsetW pad src pos).instr.channel = .dec from decodeDecReq_channel _ _)
    rw [hostDecodeFrom_succ fuel hr, hostDecodeFrom_succ fuel (h ▸ hr),
      ih (s := loadDecRsp r s) (t := loadDecRsp r t) h]

variable (fuel : Nat) (h : decAnswer s.cfg.offsetW (decsRequest s.cfg.offsetW pad src pos).instr = some r)

include h

theorem hostDecodeFrom_of_ok (hok : r.status = DecStatus.ok.code) : hostDecodeFrom pad src (fuel + 1) pos s =
    (hostDecodeFrom pad src fuel (pos + r.consumed.toNat) s).map (.prepend r.byteList) := by
  rw [hostDecodeFrom_succ fuel h, hostDecodeFrom_congr (loadDecRsp_cfg r s), if_neg (by rw [hok]; decide), if_pos hok]

theorem hostDecodeFrom_of_corrupt (herr : isCorruptInput r.status = true) :
    hostDecodeFrom pad src (fuel + 1) pos s = some ⟨r.byteList, some (r.status, r.erroff)⟩ := by
  obtain ⟨hend, hok⟩ := status_ne_of_isCorruptInput herr
  rw [hostDecodeFrom_succ fuel h, if_neg hend, if_neg hok]

end

/-! ### Decoding the blocks of a buffer in order -/

theorem drop_add_of_drop_eq_append {α : Type} {l xs ys : List α} {n : Nat} (h : l.drop n = xs ++ ys) :
    l.drop (n + xs.length) = ys := by
  rw [← List.drop_drop, h, List.drop_left]

section

variable {pad : Nat → Nat → Byte} {src rest : List Byte} {pos : Nat} {s : State}

theorem hostDecodeFrom_end (fuel : Nat) (h : src.drop pos = []) :
    hostDecodeFrom pad src (fuel + 1) pos s = some ⟨[], none⟩ := by
  rw [hostDecodeFrom_succ fuel (by rw [decsRequest_instr_end _ _ h]; rfl)]
  rfl

/-- A short block of encoded characters gives its byte, and the loop goes on after it. -/
theorem hostDecodeFrom_shortBlock (fuel : Nat) {b0 : Byte} (h : src.drop pos = shortBlockChars b0) :
    hostDecodeFrom pad src (fuel + 1) pos s =
      (hostDecodeFrom pad src fuel (pos + (shortBlockChars b0).length) s).map (.prepend [b0]) := by
  have hans : decAnswer s.cfg.offsetW (decsRequest s.cfg.offsetW pad src pos).instr =
      some ⟨0, 1, 2, lanes2 b0 0, 0⟩ := by
    rw [decsRequest_instr_short _ _ h, decAnswer, decShortResponse_encDigits]
  have hbytes : DecRsp.byteList ⟨0, 1, 2, lanes2 b0 0, 0⟩ = [b0] := by
    rw [DecRsp.byteList, lane_zero_lanes2]
    rfl
  rw [hostDecodeFrom_of_ok fuel hans rfl, hbytes]
  rfl

/-- A full block of encoded characters gives its two bytes, and the loop goes on after it. -/
theorem hostDecodeFrom_fullBlock (fuel : Nat) {b0 b1 : Byte} (h : src.drop pos = fullBlockChars b0 b1 ++ rest) :
    hostDecodeFrom pad src (fuel + 1) pos s =
      (hostDecodeFrom pad src fuel (pos + (fullBlockChars b0 b1).length) s).map (.prepend [b0, b1]) := by
  have hans : decAnswer s.cfg.offsetW (decsRequest s.cfg.offsetW pad src pos).instr =
      some ⟨0, 2, 3, lanes2 b0 b1, 0⟩ := by
    rw [decsRequest_instr_full _ _ h, decAnswer, decFullResponse_encDigits]
  have hbytes : DecRsp.byteList ⟨0, 2, 3, lanes2 b0 b1, 0⟩ = [b0, b1] := by
    rw [DecRsp.byteList, lane_zero_lanes2, lane_one_lanes2]
    rfl
  rw [hostDecodeFrom_of_ok fuel hans rfl, hbytes]
  rfl

/-- The loop passes over the encoding of an even number of bytes, with a request for each two of them. -/
theorem hostDecodeFrom_fullBlocks (fuel : Nat) {bytes : List Byte} (heven : bytes.length % 2 = 0)
    (h : src.drop pos = encodedChars bytes ++ rest) :
    hostDecodeFrom pad src (bytes.length / 2 + fuel) pos s =
      (hostDecodeFrom pad src fuel (pos + (encodedChars bytes).length) s).map (.prepend bytes) := by
  induction bytes using encodedChars.induct generalizing pos with
  | case1 => simp [encodedChars, DecodeResult.prepend_nil]
  | case2 b0 => simp at heven
  | case3 b0 b1 more ih =>
    rw [encodedChars, List.append_assoc] at h
    have hfuel : (b0 :: b1 :: more).length / 2 + fuel = more.length / 2 + fuel + 1 := by
      simp only [List.length_cons]
      omega
    have hmore : more.length % 2 = 0 := by
      simp only [List.length_cons] at heven
      omega
    rw [hfuel, hostDecodeFrom_fullBlock _ h, ih hmore (drop_add_of_drop_eq_append h), Option.map_map, encodedChars,
      List.length_append, Nat.add_assoc]
    exact congrArg (Option.map · _) (funext fun d => (DecodeResult.prepend_append [b0, b1] more d).symm)

/-- The loop decodes the encoding of any bytes, to the end of the buffer (R44). -/
theorem hostDecodeFrom_encodedChars {fuel : Nat} {bytes : List Byte} (h : src.drop pos = encodedChars bytes)
    (hfuel : (encodedChars bytes).length < fuel) : hostDecodeFrom pad src fuel pos s = some ⟨bytes, none⟩ := by
  induction bytes using encodedChars.induct generalizing pos fuel with
  | case1 =>
    obtain ⟨fuel, rfl⟩ := Nat.exists_eq_add_one_of_ne_zero (Nat.ne_zero_of_lt hfuel)
    exact hostDecodeFrom_end fuel h
  | case2 b0 =>
    obtain ⟨fuel, rfl⟩ : ∃ k, fuel = k + 2 := ⟨fuel - 2, by simp [encodedChars, shortBlockChars] at hfuel; omega⟩
    have hend : src.drop (pos + (shortBlockChars b0).length) = [] :=
      drop_add_of_drop_eq_append (h.trans (List.append_nil _).symm)
    rw [hostDecodeFrom_shortBlock _ h, hostDecodeFrom_end fuel hend]
    rfl
  | case3 b0 b1 more ih =>
    obtain ⟨fuel, rfl⟩ := Nat.exists_eq_add_one_of_ne_zero (Nat.ne_zero_of_lt hfuel)
    rw [encodedChars, List.length_append, fullBlockChars] at hfuel
    simp only [List.length_cons] at hfuel
    rw [hostDecodeFrom_fullBlock fuel h, ih (drop_add_of_drop_eq_append h) (by omega)]
    rfl

end

/-! ### How many bytes a decode gives (R42) -/

/-- What R42 says of a decode of `m` characters. -/
structure DecodeBounded (m : Nat) (d : DecodeResult) : Prop where
  length_le : d.bytes.length ≤ decodedLengthUpperBound m
  exact_of_clean : d.error = none → m % 3 ≠ 1 ∧ d.bytes.length = decodedLengthUpperBound m
  error_of_lone : m % 3 = 1 → d.error ≠ none ∧ d.bytes.length ≤ m / 3 * 2

theorem decodedLengthUpperBound_add_three (m : Nat) :
    decodedLengthUpperBound (m + 3) = decodedLengthUpperBound m + 2 := by
  have hmod : (m + 3) % 3 = m % 3 := by omega
  rw [decodedLengthUpperBound, decodedLengthUpperBound, hmod]
  omega

theorem DecodeBounded.cleanEnd : DecodeBounded 0 ⟨[], none⟩ := ⟨Nat.le_refl 0, fun _ => ⟨nofun, rfl⟩, nofun⟩

theorem DecodeBounded.short {bs : List Byte} (h : bs.length = 1) : DecodeBounded 2 (.prepend bs ⟨[], none⟩) := by
  have hlen : (DecodeResult.prepend bs ⟨[], none⟩).bytes.length = 1 := by simp [DecodeResult.prepend, h]
  exact ⟨Nat.le_of_eq hlen, fun _ => ⟨nofun, hlen⟩, nofun⟩

theorem DecodeBounded.of_error {m : Nat} {bs : List Byte} (e : BitVec 3 × Nat) (h : bs.length ≤ m / 3 * 2) :
    DecodeBounded m ⟨bs, some e⟩ where
  length_le := Nat.le_add_right_of_le h
  exact_of_clean := nofun
  error_of_lone _ := ⟨nofun, h⟩

theorem DecodeBounded.prepend {m : Nat} {d : DecodeResult} (h : DecodeBounded m d) {bs : List Byte}
    (hbs : bs.length = 2) : DecodeBounded (m + 3) (d.prepend bs) where
  length_le := by
    rw [DecodeResult.prepend, List.length_append, hbs, decodedLengthUpperBound_add_three, Nat.add_comm]
    exact Nat.add_le_add_right h.length_le 2
  exact_of_clean herr := by
    obtain ⟨hmod, hlen⟩ := h.exact_of_clean herr
    rw [DecodeResult.prepend, List.length_append, hbs, decodedLengthUpperBound_add_three]
    omega
  error_of_lone hmod := by
    obtain ⟨herr, hlen⟩ := h.error_of_lone (by omega)
    refine ⟨herr, ?_⟩
    rw [DecodeResult.prepend, List.length_append, hbs]
    omega

theorem length_byteList (r : DecRsp) : r.byteList.length = min r.nbytes.toNat 2 := List.length_take

/-- A short block is an error without bytes, or one byte for its two characters (R69). -/
theorem decAnswer_dec2_cases (w : Nat) (a b c : Byte) (off : Nat) : ∃ r, decAnswer w (.dec2 a b c off) = some r ∧
    ((isCorruptInput r.status = true ∧ r.nbytes = 0) ∨
      (r.status = DecStatus.ok.code ∧ r.nbytes = 1 ∧ r.consumed = 2)) := by
  refine ⟨_, rfl, ?_⟩
  obtain ⟨-, h⟩ | ⟨c0, -, -, h⟩ | ⟨c0, c1, -, -, h⟩ := decShortResponse_cases w a b off <;> rw [h]
  · exact .inl ⟨rfl, rfl⟩
  · exact .inl ⟨rfl, rfl⟩
  · exact .inr ⟨rfl, rfl, rfl⟩

/-- A full block is an error, or two bytes for its three characters (R70). -/
theorem decAnswer_dec3_cases (w : Nat) (a b c : Byte) (off : Nat) : ∃ r, decAnswer w (.dec3 a b c off) = some r ∧
    (isCorruptInput r.status = true ∨
      (r.status = DecStatus.ok.code ∧ r.nbytes = 2 ∧ r.consumed = 3)) := by
  refine ⟨_, rfl, ?_⟩
  obtain ⟨-, h⟩ | ⟨c0, -, -, h⟩ | ⟨c0, c1, -, -, -, h⟩ | ⟨c0, c1, c2, -, -, -, h⟩ :=
    decFullResponse_cases w a b c off <;> rw [h]
  · exact .inl rfl
  · exact .inl rfl
  · exact .inl rfl
  · obtain ⟨-, h⟩ | ⟨-, h⟩ := decFullBlock_cases w c0 c1 c2 off <;> rw [h]
    · exact .inl rfl
    · exact .inr ⟨rfl, rfl, rfl⟩

/-- Decoding what is left at a position ends within its bound: at the clean end, at a lone character or after a short
block, and over a full block by what is left after it. -/
theorem hostDecodeFrom_bounded (pad : Nat → Nat → Byte) (src : List Byte) (s : State) :
    ∀ (rest : List Byte) (pos fuel : Nat), src.drop pos = rest → rest.length < fuel →
      ∃ d, hostDecodeFrom pad src fuel pos s = some d ∧ DecodeBounded rest.length d
  | _, _, 0, _, hfuel => absurd hfuel (Nat.not_lt_zero _)
  | [], _, fuel + 1, h, _ => ⟨_, hostDecodeFrom_end fuel h, .cleanEnd⟩
  | [_], _, fuel + 1, h, _ =>
    ⟨_, hostDecodeFrom_of_corrupt fuel (congrArg _ (decsRequest_instr_lone _ pad h)) rfl,
      .of_error _ (by simp [length_byteList, corruptResponse])⟩
  | [a, b], pos, fuel + 1, h, hfuel => by
    have hinstr := decsRequest_instr_short s.cfg.offsetW pad h
    obtain ⟨r, hr, ⟨herr, hn⟩ | ⟨hok, hn, hc⟩⟩ :=
      decAnswer_dec2_cases s.cfg.offsetW a b (pad pos 2) (trunc s.cfg.offsetW pos)
    · exact ⟨_, hostDecodeFrom_of_corrupt fuel (hinstr ▸ hr) herr, .of_error _ (by simp [length_byteList, hn])⟩
    · obtain ⟨fuel, rfl⟩ : ∃ k, fuel = k + 1 := Nat.exists_eq_add_one_of_ne_zero (by simp at hfuel; omega)
      have hend : src.drop (pos + r.consumed.toNat) = [] := by
        rw [hc]
        exact drop_add_of_drop_eq_append (xs := [a, b]) h
      rw [hostDecodeFrom_of_ok _ (hinstr ▸ hr) hok, hostDecodeFrom_end fuel hend]
      exact ⟨_, rfl, .short (by simp [length_byteList, hn])⟩
  | a :: b :: c :: rest, pos, fuel + 1, h, hfuel => by
    have hinstr := decsRequest_instr_full s.cfg.offsetW pad h
    obtain ⟨r, hr, herr | ⟨hok, hn, hc⟩⟩ := decAnswer_dec3_cases s.cfg.offsetW a b c (trunc s.cfg.offsetW pos)
    · refine ⟨_, hostDecodeFrom_of_corrupt fuel (hinstr ▸ hr) herr, .of_error _ ?_⟩
      simp only [length_byteList, List.length_cons]
      omega
    · have hrest : src.drop (pos + r.consumed.toNat) = rest := by
        rw [hc]
        exact drop_add_of_drop_eq_append (xs := [a, b, c]) h
      obtain ⟨d, hd, hbound⟩ := hostDecodeFrom_bounded pad src s rest _ fuel hrest
        (by simp only [List.length_cons] at hfuel; omega)
      rw [hostDecodeFrom_of_ok _ (hinstr ▸ hr) hok, hd]
      exact ⟨_, rfl, hbound.prepend (by simp [length_byteList, hn])⟩

/-! ### Where a decode stops (R41) -/

section

variable {pad : Nat → Nat → Byte} {s : State} {src pre tail : List Byte} (heven : src.length % 2 = 0)
  (hpre : hostEncode s src = some pre)

include heven hpre

/-- After full blocks that decode, the loop ends at a corrupt response. -/
theorem hostDecode_of_corrupt {r : DecRsp}
    (h : decAnswer s.cfg.offsetW (decsRequest s.cfg.offsetW pad (pre ++ tail) pre.length).instr = some r)
    (herr : isCorruptInput r.status = true) :
    hostDecode pad s (pre ++ tail) = some ⟨src ++ r.byteList, some (r.status, r.erroff)⟩ := by
  obtain rfl : encodedChars src = pre := Option.some.inj ((hostEncode_eq s src).symm.trans hpre)
  obtain ⟨fuel, hfuel⟩ : ∃ k, (encodedChars src ++ tail).length + 1 = src.length / 2 + (k + 1) := by
    refine ⟨(encodedChars src ++ tail).length - src.length / 2, ?_⟩
    rw [List.length_append, length_encodedChars, encodedLength_of_even heven]
    omega
  rw [hostDecode, hfuel, hostDecodeFrom_fullBlocks _ heven List.drop_zero, Nat.zero_add,
    hostDecodeFrom_of_corrupt fuel h herr]
  rfl

/-- An error that emits nothing returns the bytes before it, and its offset counts from the start of the buffer
(R75). -/
theorem hostDecode_of_silent_error {st : DecStatus} {k : Nat}
    (h : decAnswer s.cfg.offsetW (decsRequest s.cfg.offsetW pad (pre ++ tail) pre.length).instr =
      some (corruptResponse s.cfg.offsetW st 0 0 0 (trunc s.cfg.offsetW pre.length) k))
    (herr : isCorruptInput st.code = true) :
    hostDecode pad s (pre ++ tail) = some ⟨src, some (st.code, (pre.length + k) % 2 ^ s.cfg.offsetW)⟩ := by
  have hbytes : (corruptResponse s.cfg.offsetW st 0 0 0 (trunc s.cfg.offsetW pre.length) k).byteList = [] := rfl
  have hoff : errorOffset s.cfg.offsetW (trunc s.cfg.offsetW pre.length) k = (pre.length + k) % 2 ^ s.cfg.offsetW :=
    Nat.mod_add_mod pre.length _ k
  rw [hostDecode_of_corrupt heven hpre h herr, hbytes, List.append_nil, corruptResponse, hoff]

end

/-! ### The obligations about whole buffers -/

/-- Settles O53: the characters of the blocks, counted. -/
theorem wholeBufferEncodeLength : Obligations.WholeBufferEncodeLength :=
  fun s src => ⟨_, hostEncode_eq s src, length_encodedChars src⟩

/-- Settles O54: each block of the encoding decodes to its bytes, and the loop ends after the last. -/
theorem wholeBufferRoundTrip : Obligations.WholeBufferRoundTrip := by
  intro pad s s' src
  have hlen := length_encodedChars src
  refine ⟨_, hostEncode_eq s src, hostDecodeFrom_encodedChars rfl (Nat.lt_succ_self _), hlen, ?_⟩
  rw [hlen, decodedLengthUpperBound_encodedLength]

/-- Settles O55: the bound for what is left at position 0, the whole buffer. -/
theorem wholeBufferDecodeBound : Obligations.WholeBufferDecodeBound := by
  intro pad s src
  obtain ⟨d, hd, hle, hclean, hlone⟩ := hostDecodeFrom_bounded pad src s src 0 (src.length + 1) rfl (Nat.lt_succ_self _)
  exact ⟨d, hd, hle, hclean, hlone⟩

/-- Settles O56: the state after the request holds its answer, at which the loop ends. -/
theorem wholeBufferStopsAtFirstError : Obligations.WholeBufferStopsAtFirstError := by
  intro pad s t src pre tail heven hpre hexec hcorrupt
  obtain ⟨r, hans⟩ := exists_decAnswer s.cfg.offsetW
    (show (decsRequest s.cfg.offsetW pad (pre ++ tail) pre.length).instr.channel = .dec from decodeDecReq_channel _ _)
  obtain rfl : loadDecRsp r s = t := Host.Outcome.next.inj ((exec_of_decAnswer hans).symm.trans hexec)
  exact hostDecode_of_corrupt heven hpre hans hcorrupt

/-- Settles O57: the answers to a lone character and to a short block by its lowest invalid lane emit nothing. -/
theorem wholeBufferErrorInFinalBlock : Obligations.WholeBufferErrorInFinalBlock := by
  intro pad ch0 ch1 s src pre heven hpre
  refine ⟨hostDecode_of_silent_error (st := .errLone) (k := 0) heven hpre ?_ rfl,
    fun h0 => hostDecode_of_silent_error (st := .errInvalid) (k := 0) heven hpre ?_ rfl,
    fun c0 h0 h1 => hostDecode_of_silent_error (st := .errInvalid) (k := 1) heven hpre ?_ rfl⟩
  · rw [decsRequest_instr_lone _ _ List.drop_left, decAnswer]
  · rw [decsRequest_instr_short _ _ List.drop_left, decAnswer, decShortResponse_of_invalid_zero h0, invalidCharResponse]
  · rw [decsRequest_instr_short _ _ List.drop_left, decAnswer, decShortResponse_of_invalid_one h0 h1,
      invalidCharResponse]

end Sys2Proof.Machine
